-- ==== Sys2Proof/Word.lean ====
section
/-! DEFINITION. The word types of the machine and their plainest arithmetic (spec/00_scope.md rules R9, R10). -/

namespace Sys2Proof

/-- A 32-bit value (R19: "a 32-bit value"). -/
abbrev Word := BitVec 32

/-- A byte of memory (R53). -/
abbrev Byte := BitVec 8

/-- A 64-bit value, the width of `HI || LO` (R23). -/
abbrev DWord := BitVec 64

/-- A general register number 0..31 (R95). -/
abbrev Reg := BitVec 5

/-- An FPU register number 0..31 (R95). -/
abbrev FReg := BitVec 5

/-- INT_MIN of R10. -/
def intMin : Word := 0x80000000#32

/-- INT_MAX of R10. -/
def intMax : Word := 0x7FFFFFFF#32

end Sys2Proof
end

