-- ==== Sys2Proof/Syntax.lean ====
section
/-! DEFINITION. The instruction set: one constructor per row of spec/opcode_table.json, operands in the
assembler's order (spec/30_encoding.md rule R107). -/

namespace Sys2Proof

/-- The instructions of `allegrex-interp-int+fpu` (R2, R97) and the 18 refused opcode groups (R104), which carry
the whole word. A register operand is its 5-bit number; EXT carries its size 1..32 (R135), not the field. -/
inductive Instr where
  /-- SLL, R111 -/
  | sll (rd : Reg) (rt : Reg) (sa : BitVec 5)
  /-- SRL, R112 -/
  | srl (rd : Reg) (rt : Reg) (sa : BitVec 5)
  /-- ROTR, R113 -/
  | rotr (rd : Reg) (rt : Reg) (sa : BitVec 5)
  /-- SRA, R114 -/
  | sra (rd : Reg) (rt : Reg) (sa : BitVec 5)
  /-- SLLV, R115 -/
  | sllv (rd : Reg) (rt : Reg) (rs : Reg)
  /-- SRLV, R116 -/
  | srlv (rd : Reg) (rt : Reg) (rs : Reg)
  /-- ROTRV, R117 -/
  | rotrv (rd : Reg) (rt : Reg) (rs : Reg)
  /-- SRAV, R118 -/
  | srav (rd : Reg) (rt : Reg) (rs : Reg)
  /-- MOVZ, R119 -/
  | movz (rd : Reg) (rs : Reg) (rt : Reg)
  /-- MOVN, R120 -/
  | movn (rd : Reg) (rs : Reg) (rt : Reg)
  /-- CLZ, R121 -/
  | clz (rd : Reg) (rs : Reg)
  /-- CLO, R122 -/
  | clo (rd : Reg) (rs : Reg)
  /-- ADD, R123 -/
  | add (rd : Reg) (rs : Reg) (rt : Reg)
  /-- ADDU, R124 -/
  | addu (rd : Reg) (rs : Reg) (rt : Reg)
  /-- SUB, R125 -/
  | sub (rd : Reg) (rs : Reg) (rt : Reg)
  /-- SUBU, R126 -/
  | subu (rd : Reg) (rs : Reg) (rt : Reg)
  /-- AND, R127 -/
  | and (rd : Reg) (rs : Reg) (rt : Reg)
  /-- OR, R128 -/
  | or (rd : Reg) (rs : Reg) (rt : Reg)
  /-- XOR, R129 -/
  | xor (rd : Reg) (rs : Reg) (rt : Reg)
  /-- NOR, R130 -/
  | nor (rd : Reg) (rs : Reg) (rt : Reg)
  /-- SLT, R131 -/
  | slt (rd : Reg) (rs : Reg) (rt : Reg)
  /-- SLTU, R132 -/
  | sltu (rd : Reg) (rs : Reg) (rt : Reg)
  /-- MAX, R133 -/
  | max (rd : Reg) (rs : Reg) (rt : Reg)
  /-- MIN, R134 -/
  | min (rd : Reg) (rs : Reg) (rt : Reg)
  /-- EXT, R135 -/
  | ext (rt : Reg) (rs : Reg) (pos : BitVec 5) (size : Nat)
  /-- INS, R136 -/
  | ins (rt : Reg) (rs : Reg) (pos : BitVec 5) (msb : BitVec 5)
  /-- WSBH, R137 -/
  | wsbh (rd : Reg) (rt : Reg)
  /-- WSBW, R138 -/
  | wsbw (rd : Reg) (rt : Reg)
  /-- SEB, R139 -/
  | seb (rd : Reg) (rt : Reg)
  /-- BITREV, R140 -/
  | bitrev (rd : Reg) (rt : Reg)
  /-- SEH, R141 -/
  | seh (rd : Reg) (rt : Reg)
  /-- ADDI, R142 -/
  | addi (rt : Reg) (rs : Reg) (imm : BitVec 16)
  /-- ADDIU, R143 -/
  | addiu (rt : Reg) (rs : Reg) (imm : BitVec 16)
  /-- SLTI, R144 -/
  | slti (rt : Reg) (rs : Reg) (imm : BitVec 16)
  /-- SLTIU, R145 -/
  | sltiu (rt : Reg) (rs : Reg) (imm : BitVec 16)
  /-- ANDI, R146 -/
  | andi (rt : Reg) (rs : Reg) (imm : BitVec 16)
  /-- ORI, R147 -/
  | ori (rt : Reg) (rs : Reg) (imm : BitVec 16)
  /-- XORI, R148 -/
  | xori (rt : Reg) (rs : Reg) (imm : BitVec 16)
  /-- LUI, R149 -/
  | lui (rt : Reg) (imm : BitVec 16)
  /-- MFHI, R150 -/
  | mfhi (rd : Reg)
  /-- MTHI, R151 -/
  | mthi (rs : Reg)
  /-- MFLO, R152 -/
  | mflo (rd : Reg)
  /-- MTLO, R153 -/
  | mtlo (rs : Reg)
  /-- MULT, R154 -/
  | mult (rs : Reg) (rt : Reg)
  /-- MULTU, R155 -/
  | multu (rs : Reg) (rt : Reg)
  /-- MADD, R156 -/
  | madd (rs : Reg) (rt : Reg)
  /-- MADDU, R157 -/
  | maddu (rs : Reg) (rt : Reg)
  /-- MSUB, R158 -/
  | msub (rs : Reg) (rt : Reg)
  /-- MSUBU, R159 -/
  | msubu (rs : Reg) (rt : Reg)
  /-- DIV, R160 -/
  | div (rs : Reg) (rt : Reg)
  /-- DIVU, R161 -/
  | divu (rs : Reg) (rt : Reg)
  /-- LB, R175 -/
  | lb (rt : Reg) (base : Reg) (offset : BitVec 16)
  /-- LH, R176 -/
  | lh (rt : Reg) (base : Reg) (offset : BitVec 16)
  /-- LWL, R177 -/
  | lwl (rt : Reg) (base : Reg) (offset : BitVec 16)
  /-- LW, R178 -/
  | lw (rt : Reg) (base : Reg) (offset : BitVec 16)
  /-- LBU, R179 -/
  | lbu (rt : Reg) (base : Reg) (offset : BitVec 16)
  /-- LHU, R180 -/
  | lhu (rt : Reg) (base : Reg) (offset : BitVec 16)
  /-- LWR, R181 -/
  | lwr (rt : Reg) (base : Reg) (offset : BitVec 16)
  /-- SB, R182 -/
  | sb (rt : Reg) (base : Reg) (offset : BitVec 16)
  /-- SH, R183 -/
  | sh (rt : Reg) (base : Reg) (offset : BitVec 16)
  /-- SWL, R184 -/
  | swl (rt : Reg) (base : Reg) (offset : BitVec 16)
  /-- SW, R185 -/
  | sw (rt : Reg) (base : Reg) (offset : BitVec 16)
  /-- SWR, R186 -/
  | swr (rt : Reg) (base : Reg) (offset : BitVec 16)
  /-- LWC1, R187 -/
  | lwc1 (ft : FReg) (base : Reg) (offset : BitVec 16)
  /-- SWC1, R188 -/
  | swc1 (ft : FReg) (base : Reg) (offset : BitVec 16)
  /-- CACHE, R189 -/
  | cache (op : BitVec 5) (base : Reg) (offset : BitVec 16)
  /-- BEQ, R195 -/
  | beq (rs : Reg) (rt : Reg) (offset : BitVec 16)
  /-- BNE, R196 -/
  | bne (rs : Reg) (rt : Reg) (offset : BitVec 16)
  /-- BLEZ, R197 -/
  | blez (rs : Reg) (offset : BitVec 16)
  /-- BGTZ, R198 -/
  | bgtz (rs : Reg) (offset : BitVec 16)
  /-- BEQL, R199 -/
  | beql (rs : Reg) (rt : Reg) (offset : BitVec 16)
  /-- BNEL, R200 -/
  | bnel (rs : Reg) (rt : Reg) (offset : BitVec 16)
  /-- BLEZL, R201 -/
  | blezl (rs : Reg) (offset : BitVec 16)
  /-- BGTZL, R202 -/
  | bgtzl (rs : Reg) (offset : BitVec 16)
  /-- BLTZ, R203 -/
  | bltz (rs : Reg) (offset : BitVec 16)
  /-- BGEZ, R204 -/
  | bgez (rs : Reg) (offset : BitVec 16)
  /-- BLTZL, R205 -/
  | bltzl (rs : Reg) (offset : BitVec 16)
  /-- BGEZL, R206 -/
  | bgezl (rs : Reg) (offset : BitVec 16)
  /-- BLTZAL, R207 -/
  | bltzal (rs : Reg) (offset : BitVec 16)
  /-- BGEZAL, R208 -/
  | bgezal (rs : Reg) (offset : BitVec 16)
  /-- BLTZALL, R209 -/
  | bltzall (rs : Reg) (offset : BitVec 16)
  /-- BGEZALL, R210 -/
  | bgezall (rs : Reg) (offset : BitVec 16)
  /-- J, R211 -/
  | j (target : BitVec 26)
  /-- JAL, R212 -/
  | jal (target : BitVec 26)
  /-- JR, R213 -/
  | jr (rs : Reg)
  /-- JALR, R214 -/
  | jalr (rd : Reg) (rs : Reg)
  /-- MFC1, R216 -/
  | mfc1 (rt : Reg) (fs : FReg)
  /-- MTC1, R217 -/
  | mtc1 (rt : Reg) (fs : FReg)
  /-- CFC1, R218 -/
  | cfc1 (rt : Reg) (fs : BitVec 5)
  /-- CTC1, R219 -/
  | ctc1 (rt : Reg) (fs : BitVec 5)
  /-- BC1F, R220 -/
  | bc1f (offset : BitVec 16)
  /-- BC1T, R221 -/
  | bc1t (offset : BitVec 16)
  /-- BC1FL, R222 -/
  | bc1fl (offset : BitVec 16)
  /-- BC1TL, R223 -/
  | bc1tl (offset : BitVec 16)
  /-- ADD.S, R224 -/
  | addS (fd : FReg) (fs : FReg) (ft : FReg)
  /-- SUB.S, R225 -/
  | subS (fd : FReg) (fs : FReg) (ft : FReg)
  /-- MUL.S, R226 -/
  | mulS (fd : FReg) (fs : FReg) (ft : FReg)
  /-- DIV.S, R227 -/
  | divS (fd : FReg) (fs : FReg) (ft : FReg)
  /-- SQRT.S, R228 -/
  | sqrtS (fd : FReg) (fs : FReg)
  /-- ABS.S, R229 -/
  | absS (fd : FReg) (fs : FReg)
  /-- MOV.S, R230 -/
  | movS (fd : FReg) (fs : FReg)
  /-- NEG.S, R231 -/
  | negS (fd : FReg) (fs : FReg)
  /-- CVT.S.W, R234 -/
  | cvtSW (fd : FReg) (fs : FReg)
  /-- ROUND.W.S, R235 -/
  | roundWS (fd : FReg) (fs : FReg)
  /-- CVT.W.S, R236 -/
  | cvtWS (fd : FReg) (fs : FReg)
  /-- TRUNC.W.S, R237 -/
  | truncWS (fd : FReg) (fs : FReg)
  /-- CEIL.W.S, R238 -/
  | ceilWS (fd : FReg) (fs : FReg)
  /-- FLOOR.W.S, R239 -/
  | floorWS (fd : FReg) (fs : FReg)
  /-- C.F.S, R242 -/
  | cF (fs : FReg) (ft : FReg)
  /-- C.UN.S, R243 -/
  | cUn (fs : FReg) (ft : FReg)
  /-- C.EQ.S, R244 -/
  | cEq (fs : FReg) (ft : FReg)
  /-- C.UEQ.S, R245 -/
  | cUeq (fs : FReg) (ft : FReg)
  /-- C.OLT.S, R246 -/
  | cOlt (fs : FReg) (ft : FReg)
  /-- C.ULT.S, R247 -/
  | cUlt (fs : FReg) (ft : FReg)
  /-- C.OLE.S, R248 -/
  | cOle (fs : FReg) (ft : FReg)
  /-- C.ULE.S, R249 -/
  | cUle (fs : FReg) (ft : FReg)
  /-- C.SF.S, R250 -/
  | cSf (fs : FReg) (ft : FReg)
  /-- C.NGLE.S, R251 -/
  | cNgle (fs : FReg) (ft : FReg)
  /-- C.SEQ.S, R252 -/
  | cSeq (fs : FReg) (ft : FReg)
  /-- C.NGL.S, R253 -/
  | cNgl (fs : FReg) (ft : FReg)
  /-- C.LT.S, R254 -/
  | cLt (fs : FReg) (ft : FReg)
  /-- C.NGE.S, R255 -/
  | cNge (fs : FReg) (ft : FReg)
  /-- C.LE.S, R256 -/
  | cLe (fs : FReg) (ft : FReg)
  /-- C.NGT.S, R257 -/
  | cNgt (fs : FReg) (ft : FReg)
  /-- SYSCALL, R258 -/
  | syscall (code : BitVec 20)
  /-- BREAK, R259 -/
  | brk (code : BitVec 20)
  /-- SYNC, R260 -/
  | sync (stype : BitVec 5)
  /-- COP0, R262 -/
  | cop0 (w : Word)
  /-- COP2, R263 -/
  | cop2 (w : Word)
  /-- SPECIAL2, R264 -/
  | special2 (w : Word)
  /-- VFPU0, R265 -/
  | vfpu0 (w : Word)
  /-- VFPU1, R266 -/
  | vfpu1 (w : Word)
  /-- VFPU3, R267 -/
  | vfpu3 (w : Word)
  /-- LV.S, R268 -/
  | lvS (w : Word)
  /-- VFPU4, R269 -/
  | vfpu4 (w : Word)
  /-- LVL.Q / LVR.Q, R270 -/
  | lvlrQ (w : Word)
  /-- LV.Q, R271 -/
  | lvQ (w : Word)
  /-- VFPU5, R272 -/
  | vfpu5 (w : Word)
  /-- SV.S, R273 -/
  | svS (w : Word)
  /-- VFPU6, R274 -/
  | vfpu6 (w : Word)
  /-- SVL.Q / SVR.Q, R275 -/
  | svlrQ (w : Word)
  /-- SV.Q, R276 -/
  | svQ (w : Word)
  /-- VFPU7, R277 -/
  | vfpu7 (w : Word)
  /-- LL, R278 -/
  | ll (w : Word)
  /-- SC, R279 -/
  | sc (w : Word)
  deriving DecidableEq, Repr

end Sys2Proof
end

