-- ==== Sys2Proof/WellFormed.lean ====
section
/-! DEFINITION. Which instruction terms an encoding exists for. Operands of fixed width are always encodable; the checks
are EXT's size (spec/41_alu_register.md rule R135) and the primary opcode of a refused group's word (spec/30_encoding.md
rule R104). -/

namespace Sys2Proof

/-- The primary opcode `w[31:26]` of a word (R82). -/
def primaryOpcode (w : Word) : BitVec 6 := w.extractLsb' 26 6

/-- `i` has an encoding. -/
def WellFormed (i : Instr) : Bool :=
  match i with
  | .ext _ _ _ size => decide (1 ≤ size) && decide (size ≤ 32)
  | .cop0 w => primaryOpcode w == 0x10#6
  | .cop2 w => primaryOpcode w == 0x12#6
  | .special2 w => primaryOpcode w == 0x1C#6
  | .vfpu0 w => primaryOpcode w == 0x18#6
  | .vfpu1 w => primaryOpcode w == 0x19#6
  | .vfpu3 w => primaryOpcode w == 0x1B#6
  | .lvS w => primaryOpcode w == 0x32#6
  | .vfpu4 w => primaryOpcode w == 0x34#6
  | .lvlrQ w => primaryOpcode w == 0x35#6
  | .lvQ w => primaryOpcode w == 0x36#6
  | .vfpu5 w => primaryOpcode w == 0x37#6
  | .svS w => primaryOpcode w == 0x3A#6
  | .vfpu6 w => primaryOpcode w == 0x3C#6
  | .svlrQ w => primaryOpcode w == 0x3D#6
  | .svQ w => primaryOpcode w == 0x3E#6
  | .vfpu7 w => primaryOpcode w == 0x3F#6
  | .ll w => primaryOpcode w == 0x30#6
  | .sc w => primaryOpcode w == 0x38#6
  | .sll _ _ _ => true
  | .srl _ _ _ => true
  | .rotr _ _ _ => true
  | .sra _ _ _ => true
  | .sllv _ _ _ => true
  | .srlv _ _ _ => true
  | .rotrv _ _ _ => true
  | .srav _ _ _ => true
  | .movz _ _ _ => true
  | .movn _ _ _ => true
  | .clz _ _ => true
  | .clo _ _ => true
  | .add _ _ _ => true
  | .addu _ _ _ => true
  | .sub _ _ _ => true
  | .subu _ _ _ => true
  | .and _ _ _ => true
  | .or _ _ _ => true
  | .xor _ _ _ => true
  | .nor _ _ _ => true
  | .slt _ _ _ => true
  | .sltu _ _ _ => true
  | .max _ _ _ => true
  | .min _ _ _ => true
  | .ins _ _ _ _ => true
  | .wsbh _ _ => true
  | .wsbw _ _ => true
  | .seb _ _ => true
  | .bitrev _ _ => true
  | .seh _ _ => true
  | .addi _ _ _ => true
  | .addiu _ _ _ => true
  | .slti _ _ _ => true
  | .sltiu _ _ _ => true
  | .andi _ _ _ => true
  | .ori _ _ _ => true
  | .xori _ _ _ => true
  | .lui _ _ => true
  | .mfhi _ => true
  | .mthi _ => true
  | .mflo _ => true
  | .mtlo _ => true
  | .mult _ _ => true
  | .multu _ _ => true
  | .madd _ _ => true
  | .maddu _ _ => true
  | .msub _ _ => true
  | .msubu _ _ => true
  | .div _ _ => true
  | .divu _ _ => true
  | .lb _ _ _ => true
  | .lh _ _ _ => true
  | .lwl _ _ _ => true
  | .lw _ _ _ => true
  | .lbu _ _ _ => true
  | .lhu _ _ _ => true
  | .lwr _ _ _ => true
  | .sb _ _ _ => true
  | .sh _ _ _ => true
  | .swl _ _ _ => true
  | .sw _ _ _ => true
  | .swr _ _ _ => true
  | .lwc1 _ _ _ => true
  | .swc1 _ _ _ => true
  | .cache _ _ _ => true
  | .beq _ _ _ => true
  | .bne _ _ _ => true
  | .blez _ _ => true
  | .bgtz _ _ => true
  | .beql _ _ _ => true
  | .bnel _ _ _ => true
  | .blezl _ _ => true
  | .bgtzl _ _ => true
  | .bltz _ _ => true
  | .bgez _ _ => true
  | .bltzl _ _ => true
  | .bgezl _ _ => true
  | .bltzal _ _ => true
  | .bgezal _ _ => true
  | .bltzall _ _ => true
  | .bgezall _ _ => true
  | .j _ => true
  | .jal _ => true
  | .jr _ => true
  | .jalr _ _ => true
  | .mfc1 _ _ => true
  | .mtc1 _ _ => true
  | .cfc1 _ _ => true
  | .ctc1 _ _ => true
  | .bc1f _ => true
  | .bc1t _ => true
  | .bc1fl _ => true
  | .bc1tl _ => true
  | .addS _ _ _ => true
  | .subS _ _ _ => true
  | .mulS _ _ _ => true
  | .divS _ _ _ => true
  | .sqrtS _ _ => true
  | .absS _ _ => true
  | .movS _ _ => true
  | .negS _ _ => true
  | .cvtSW _ _ => true
  | .roundWS _ _ => true
  | .cvtWS _ _ => true
  | .truncWS _ _ => true
  | .ceilWS _ _ => true
  | .floorWS _ _ => true
  | .cF _ _ => true
  | .cUn _ _ => true
  | .cEq _ _ => true
  | .cUeq _ _ => true
  | .cOlt _ _ => true
  | .cUlt _ _ => true
  | .cOle _ _ => true
  | .cUle _ _ => true
  | .cSf _ _ => true
  | .cNgle _ _ => true
  | .cSeq _ _ => true
  | .cNgl _ _ => true
  | .cLt _ _ => true
  | .cNge _ _ => true
  | .cLe _ _ => true
  | .cNgt _ _ => true
  | .syscall _ => true
  | .brk _ => true
  | .sync _ => true

end Sys2Proof
end

