-- ==== Sys2Proof/Decode.lean ====
section
/-! DEFINITION. The decoder, total on words and on byte lists (spec/30_encoding.md rules R81 to R104), and the encoder. -/

namespace Sys2Proof

/-! ## Fields of a word (R82) -/

def fieldOp (w : Word) : BitVec 6 := w.extractLsb' 26 6
def fieldRs (w : Word) : BitVec 5 := w.extractLsb' 21 5
def fieldRt (w : Word) : BitVec 5 := w.extractLsb' 16 5
def fieldRd (w : Word) : BitVec 5 := w.extractLsb' 11 5
def fieldSa (w : Word) : BitVec 5 := w.extractLsb' 6 5
def fieldFunct (w : Word) : BitVec 6 := w.extractLsb' 0 6
def fieldImm (w : Word) : BitVec 16 := w.extractLsb' 0 16
def fieldTarget (w : Word) : BitVec 26 := w.extractLsb' 0 26
def fieldCode (w : Word) : BitVec 20 := w.extractLsb' 6 20

/-- The word with the bytes `b0` (lowest address) to `b3` (R55, R56). -/
def wordOfBytes (b0 b1 b2 b3 : Byte) : Word := b3 ++ b2 ++ b1 ++ b0

/-- Byte `k` of a word, byte 0 the least significant (R55). -/
def byteOfWord (w : Word) (k : Nat) : Byte := w.extractLsb' (8 * k) 8

/-! ## Decoder -/

/-- Why a word or a byte list is not an instruction. Every reason but the last is `Unrecognized` of R97. -/
inductive DecodeError where
  /-- no entry of the opcode maps of R96, R98, R100, R101 or R102 -/
  | noSuchOpcode
  /-- a reserved field of R99 is not zero -/
  | reservedField
  /-- fewer than four bytes (R81) -/
  | tooShort
  deriving DecidableEq, Repr

/-- `i` where the reserved fields of R99 are zero. -/
def checkReserved (zero : Bool) (i : Instr) : Except DecodeError Instr :=
  if zero then .ok i else .error .reservedField

/-- The SPECIAL map (R98) with the reserved fields of R99. -/
def decodeSpecial (w : Word) : Except DecodeError Instr :=
  let rs := fieldRs w
  let rt := fieldRt w
  let rd := fieldRd w
  let sa := fieldSa w
  match fieldFunct w with
  | 0x00#6 => checkReserved (rs == 0#5) (.sll rd rt sa)
  | 0x02#6 =>
    if rs = 0#5 then .ok (.srl rd rt sa) else if rs = 1#5 then .ok (.rotr rd rt sa) else .error .reservedField
  | 0x03#6 => checkReserved (rs == 0#5) (.sra rd rt sa)
  | 0x04#6 => checkReserved (sa == 0#5) (.sllv rd rt rs)
  | 0x06#6 =>
    if sa = 0#5 then .ok (.srlv rd rt rs) else if sa = 1#5 then .ok (.rotrv rd rt rs) else .error .reservedField
  | 0x07#6 => checkReserved (sa == 0#5) (.srav rd rt rs)
  | 0x08#6 => checkReserved (rt == 0#5 && rd == 0#5 && sa == 0#5) (.jr rs)
  | 0x09#6 => checkReserved (rt == 0#5 && sa == 0#5) (.jalr rd rs)
  | 0x0A#6 => checkReserved (sa == 0#5) (.movz rd rs rt)
  | 0x0B#6 => checkReserved (sa == 0#5) (.movn rd rs rt)
  | 0x0C#6 => .ok (.syscall (fieldCode w))
  | 0x0D#6 => .ok (.brk (fieldCode w))
  | 0x0F#6 => checkReserved (rs == 0#5 && rt == 0#5 && rd == 0#5) (.sync sa)
  | 0x10#6 => checkReserved (rs == 0#5 && rt == 0#5 && sa == 0#5) (.mfhi rd)
  | 0x11#6 => checkReserved (rt == 0#5 && rd == 0#5 && sa == 0#5) (.mthi rs)
  | 0x12#6 => checkReserved (rs == 0#5 && rt == 0#5 && sa == 0#5) (.mflo rd)
  | 0x13#6 => checkReserved (rt == 0#5 && rd == 0#5 && sa == 0#5) (.mtlo rs)
  | 0x16#6 => checkReserved (rt == 0#5 && sa == 0#5) (.clz rd rs)
  | 0x17#6 => checkReserved (rt == 0#5 && sa == 0#5) (.clo rd rs)
  | 0x18#6 => checkReserved (rd == 0#5 && sa == 0#5) (.mult rs rt)
  | 0x19#6 => checkReserved (rd == 0#5 && sa == 0#5) (.multu rs rt)
  | 0x1A#6 => checkReserved (rd == 0#5 && sa == 0#5) (.div rs rt)
  | 0x1B#6 => checkReserved (rd == 0#5 && sa == 0#5) (.divu rs rt)
  | 0x1C#6 => checkReserved (rd == 0#5 && sa == 0#5) (.madd rs rt)
  | 0x1D#6 => checkReserved (rd == 0#5 && sa == 0#5) (.maddu rs rt)
  | 0x20#6 => checkReserved (sa == 0#5) (.add rd rs rt)
  | 0x21#6 => checkReserved (sa == 0#5) (.addu rd rs rt)
  | 0x22#6 => checkReserved (sa == 0#5) (.sub rd rs rt)
  | 0x23#6 => checkReserved (sa == 0#5) (.subu rd rs rt)
  | 0x24#6 => checkReserved (sa == 0#5) (.and rd rs rt)
  | 0x25#6 => checkReserved (sa == 0#5) (.or rd rs rt)
  | 0x26#6 => checkReserved (sa == 0#5) (.xor rd rs rt)
  | 0x27#6 => checkReserved (sa == 0#5) (.nor rd rs rt)
  | 0x2A#6 => checkReserved (sa == 0#5) (.slt rd rs rt)
  | 0x2B#6 => checkReserved (sa == 0#5) (.sltu rd rs rt)
  | 0x2C#6 => checkReserved (sa == 0#5) (.max rd rs rt)
  | 0x2D#6 => checkReserved (sa == 0#5) (.min rd rs rt)
  | 0x2E#6 => checkReserved (rd == 0#5 && sa == 0#5) (.msub rs rt)
  | 0x2F#6 => checkReserved (rd == 0#5 && sa == 0#5) (.msubu rs rt)
  | _ => .error .noSuchOpcode

/-- The REGIMM map (R100). -/
def decodeRegimm (w : Word) : Except DecodeError Instr :=
  let rs := fieldRs w
  let offset := fieldImm w
  match fieldRt w with
  | 0x00#5 => .ok (.bltz rs offset)
  | 0x01#5 => .ok (.bgez rs offset)
  | 0x02#5 => .ok (.bltzl rs offset)
  | 0x03#5 => .ok (.bgezl rs offset)
  | 0x10#5 => .ok (.bltzal rs offset)
  | 0x11#5 => .ok (.bgezal rs offset)
  | 0x12#5 => .ok (.bltzall rs offset)
  | 0x13#5 => .ok (.bgezall rs offset)
  | _ => .error .noSuchOpcode

/-- The S format of the COP1 map (R101). -/
def decodeCop1S (w : Word) : Except DecodeError Instr :=
  let ft := fieldRt w
  let fs := fieldRd w
  let fd := fieldSa w
  match fieldFunct w with
  | 0x00#6 => .ok (.addS fd fs ft)
  | 0x01#6 => .ok (.subS fd fs ft)
  | 0x02#6 => .ok (.mulS fd fs ft)
  | 0x03#6 => .ok (.divS fd fs ft)
  | 0x04#6 => checkReserved (ft == 0#5) (.sqrtS fd fs)
  | 0x05#6 => checkReserved (ft == 0#5) (.absS fd fs)
  | 0x06#6 => checkReserved (ft == 0#5) (.movS fd fs)
  | 0x07#6 => checkReserved (ft == 0#5) (.negS fd fs)
  | 0x0C#6 => checkReserved (ft == 0#5) (.roundWS fd fs)
  | 0x0D#6 => checkReserved (ft == 0#5) (.truncWS fd fs)
  | 0x0E#6 => checkReserved (ft == 0#5) (.ceilWS fd fs)
  | 0x0F#6 => checkReserved (ft == 0#5) (.floorWS fd fs)
  | 0x24#6 => checkReserved (ft == 0#5) (.cvtWS fd fs)
  | 0x30#6 => checkReserved (fd == 0#5) (.cF fs ft)
  | 0x31#6 => checkReserved (fd == 0#5) (.cUn fs ft)
  | 0x32#6 => checkReserved (fd == 0#5) (.cEq fs ft)
  | 0x33#6 => checkReserved (fd == 0#5) (.cUeq fs ft)
  | 0x34#6 => checkReserved (fd == 0#5) (.cOlt fs ft)
  | 0x35#6 => checkReserved (fd == 0#5) (.cUlt fs ft)
  | 0x36#6 => checkReserved (fd == 0#5) (.cOle fs ft)
  | 0x37#6 => checkReserved (fd == 0#5) (.cUle fs ft)
  | 0x38#6 => checkReserved (fd == 0#5) (.cSf fs ft)
  | 0x39#6 => checkReserved (fd == 0#5) (.cNgle fs ft)
  | 0x3A#6 => checkReserved (fd == 0#5) (.cSeq fs ft)
  | 0x3B#6 => checkReserved (fd == 0#5) (.cNgl fs ft)
  | 0x3C#6 => checkReserved (fd == 0#5) (.cLt fs ft)
  | 0x3D#6 => checkReserved (fd == 0#5) (.cNge fs ft)
  | 0x3E#6 => checkReserved (fd == 0#5) (.cLe fs ft)
  | 0x3F#6 => checkReserved (fd == 0#5) (.cNgt fs ft)
  | _ => .error .noSuchOpcode

/-- The W format of the COP1 map (R101). -/
def decodeCop1W (w : Word) : Except DecodeError Instr :=
  match fieldFunct w with
  | 0x20#6 => checkReserved (fieldRt w == 0#5) (.cvtSW (fieldSa w) (fieldRd w))
  | _ => .error .noSuchOpcode

/-- BC1 by `cc`, `nd` and `tf` (R90, R99). -/
def decodeBc1 (w : Word) : Except DecodeError Instr :=
  let offset := fieldImm w
  match fieldRt w with
  | 0x00#5 => .ok (.bc1f offset)
  | 0x01#5 => .ok (.bc1t offset)
  | 0x02#5 => .ok (.bc1fl offset)
  | 0x03#5 => .ok (.bc1tl offset)
  | _ => .error .reservedField

/-- The COP1 map (R101). -/
def decodeCop1 (w : Word) : Except DecodeError Instr :=
  let rt := fieldRt w
  let fs := fieldRd w
  let low0 := fieldSa w == 0#5 && fieldFunct w == 0#6
  match fieldRs w with
  | 0x00#5 => checkReserved low0 (.mfc1 rt fs)
  | 0x02#5 => checkReserved low0 (.cfc1 rt fs)
  | 0x04#5 => checkReserved low0 (.mtc1 rt fs)
  | 0x06#5 => checkReserved low0 (.ctc1 rt fs)
  | 0x08#5 => decodeBc1 w
  | 0x10#5 => decodeCop1S w
  | 0x14#5 => decodeCop1W w
  | _ => .error .noSuchOpcode

/-- The BSHFL group by `sa` (R88, R102). -/
def decodeBshfl (w : Word) : Except DecodeError Instr :=
  let rs0 := fieldRs w == 0#5
  let rt := fieldRt w
  let rd := fieldRd w
  match fieldSa w with
  | 0x02#5 => checkReserved rs0 (.wsbh rd rt)
  | 0x03#5 => checkReserved rs0 (.wsbw rd rt)
  | 0x10#5 => checkReserved rs0 (.seb rd rt)
  | 0x14#5 => checkReserved rs0 (.bitrev rd rt)
  | 0x18#5 => checkReserved rs0 (.seh rd rt)
  | _ => .error .noSuchOpcode

/-- The SPECIAL3 map (R102); EXT's field holds `size - 1` (R87). -/
def decodeSpecial3 (w : Word) : Except DecodeError Instr :=
  match fieldFunct w with
  | 0x00#6 => .ok (.ext (fieldRt w) (fieldRs w) (fieldSa w) ((fieldRd w).toNat + 1))
  | 0x04#6 => .ok (.ins (fieldRt w) (fieldRs w) (fieldSa w) (fieldRd w))
  | 0x20#6 => decodeBshfl w
  | _ => .error .noSuchOpcode

/-- The primary opcode map (R96, R97): every word is an instruction, a refused group or an error. -/
def decode (w : Word) : Except DecodeError Instr :=
  let rs := fieldRs w
  let rt := fieldRt w
  let imm := fieldImm w
  match fieldOp w with
  | 0x00#6 => decodeSpecial w
  | 0x01#6 => decodeRegimm w
  | 0x02#6 => .ok (.j (fieldTarget w))
  | 0x03#6 => .ok (.jal (fieldTarget w))
  | 0x04#6 => .ok (.beq rs rt imm)
  | 0x05#6 => .ok (.bne rs rt imm)
  | 0x06#6 => checkReserved (rt == 0#5) (.blez rs imm)
  | 0x07#6 => checkReserved (rt == 0#5) (.bgtz rs imm)
  | 0x08#6 => .ok (.addi rt rs imm)
  | 0x09#6 => .ok (.addiu rt rs imm)
  | 0x0A#6 => .ok (.slti rt rs imm)
  | 0x0B#6 => .ok (.sltiu rt rs imm)
  | 0x0C#6 => .ok (.andi rt rs imm)
  | 0x0D#6 => .ok (.ori rt rs imm)
  | 0x0E#6 => .ok (.xori rt rs imm)
  | 0x0F#6 => checkReserved (rs == 0#5) (.lui rt imm)
  | 0x10#6 => .ok (.cop0 w)
  | 0x11#6 => decodeCop1 w
  | 0x12#6 => .ok (.cop2 w)
  | 0x14#6 => .ok (.beql rs rt imm)
  | 0x15#6 => .ok (.bnel rs rt imm)
  | 0x16#6 => checkReserved (rt == 0#5) (.blezl rs imm)
  | 0x17#6 => checkReserved (rt == 0#5) (.bgtzl rs imm)
  | 0x18#6 => .ok (.vfpu0 w)
  | 0x19#6 => .ok (.vfpu1 w)
  | 0x1B#6 => .ok (.vfpu3 w)
  | 0x1C#6 => .ok (.special2 w)
  | 0x1F#6 => decodeSpecial3 w
  | 0x20#6 => .ok (.lb rt rs imm)
  | 0x21#6 => .ok (.lh rt rs imm)
  | 0x22#6 => .ok (.lwl rt rs imm)
  | 0x23#6 => .ok (.lw rt rs imm)
  | 0x24#6 => .ok (.lbu rt rs imm)
  | 0x25#6 => .ok (.lhu rt rs imm)
  | 0x26#6 => .ok (.lwr rt rs imm)
  | 0x28#6 => .ok (.sb rt rs imm)
  | 0x29#6 => .ok (.sh rt rs imm)
  | 0x2A#6 => .ok (.swl rt rs imm)
  | 0x2B#6 => .ok (.sw rt rs imm)
  | 0x2E#6 => .ok (.swr rt rs imm)
  | 0x2F#6 => .ok (.cache rt rs imm)
  | 0x30#6 => .ok (.ll w)
  | 0x31#6 => .ok (.lwc1 rt rs imm)
  | 0x32#6 => .ok (.lvS w)
  | 0x34#6 => .ok (.vfpu4 w)
  | 0x35#6 => .ok (.lvlrQ w)
  | 0x36#6 => .ok (.lvQ w)
  | 0x37#6 => .ok (.vfpu5 w)
  | 0x38#6 => .ok (.sc w)
  | 0x39#6 => .ok (.swc1 rt rs imm)
  | 0x3A#6 => .ok (.svS w)
  | 0x3C#6 => .ok (.vfpu6 w)
  | 0x3D#6 => .ok (.svlrQ w)
  | 0x3E#6 => .ok (.svQ w)
  | 0x3F#6 => .ok (.vfpu7 w)
  | _ => .error .noSuchOpcode

/-- The instruction at the head of a list of bytes, lowest address first (R81), and the bytes after it. -/
def decodeBytes : List Byte → Except DecodeError (Instr × List Byte)
  | b0 :: b1 :: b2 :: b3 :: rest =>
    match decode (wordOfBytes b0 b1 b2 b3) with
    | .ok i => .ok (i, rest)
    | .error e => .error e
  | _ => .error .tooShort

/-! ## Encoder -/

/-- Format R and its relatives (R83, R87 to R93): six fields. -/
def encodeR (op : BitVec 6) (rs rt rd sa : BitVec 5) (funct : BitVec 6) : Word :=
  op ++ rs ++ rt ++ rd ++ sa ++ funct

/-- Format I and REGIMM (R84, R86, R90). -/
def encodeI (op : BitVec 6) (rs rt : BitVec 5) (imm : BitVec 16) : Word :=
  op ++ rs ++ rt ++ imm

/-- Format J (R85). -/
def encodeJ (op : BitVec 6) (target : BitVec 26) : Word :=
  op ++ target

/-- Format code (R93). -/
def encodeCode (code : BitVec 20) (funct : BitVec 6) : Word :=
  0#6 ++ code ++ funct

/-- The word of an instruction, from the encoding line of its rule. -/
def encode (i : Instr) : Word :=
  match i with
  | .sll rd rt sa => encodeR 0x00#6 0x00#5 rt rd sa 0x00#6
  | .srl rd rt sa => encodeR 0x00#6 0x00#5 rt rd sa 0x02#6
  | .rotr rd rt sa => encodeR 0x00#6 0x01#5 rt rd sa 0x02#6
  | .sra rd rt sa => encodeR 0x00#6 0x00#5 rt rd sa 0x03#6
  | .sllv rd rt rs => encodeR 0x00#6 rs rt rd 0x00#5 0x04#6
  | .srlv rd rt rs => encodeR 0x00#6 rs rt rd 0x00#5 0x06#6
  | .rotrv rd rt rs => encodeR 0x00#6 rs rt rd 0x01#5 0x06#6
  | .srav rd rt rs => encodeR 0x00#6 rs rt rd 0x00#5 0x07#6
  | .movz rd rs rt => encodeR 0x00#6 rs rt rd 0x00#5 0x0A#6
  | .movn rd rs rt => encodeR 0x00#6 rs rt rd 0x00#5 0x0B#6
  | .clz rd rs => encodeR 0x00#6 rs 0x00#5 rd 0x00#5 0x16#6
  | .clo rd rs => encodeR 0x00#6 rs 0x00#5 rd 0x00#5 0x17#6
  | .add rd rs rt => encodeR 0x00#6 rs rt rd 0x00#5 0x20#6
  | .addu rd rs rt => encodeR 0x00#6 rs rt rd 0x00#5 0x21#6
  | .sub rd rs rt => encodeR 0x00#6 rs rt rd 0x00#5 0x22#6
  | .subu rd rs rt => encodeR 0x00#6 rs rt rd 0x00#5 0x23#6
  | .and rd rs rt => encodeR 0x00#6 rs rt rd 0x00#5 0x24#6
  | .or rd rs rt => encodeR 0x00#6 rs rt rd 0x00#5 0x25#6
  | .xor rd rs rt => encodeR 0x00#6 rs rt rd 0x00#5 0x26#6
  | .nor rd rs rt => encodeR 0x00#6 rs rt rd 0x00#5 0x27#6
  | .slt rd rs rt => encodeR 0x00#6 rs rt rd 0x00#5 0x2A#6
  | .sltu rd rs rt => encodeR 0x00#6 rs rt rd 0x00#5 0x2B#6
  | .max rd rs rt => encodeR 0x00#6 rs rt rd 0x00#5 0x2C#6
  | .min rd rs rt => encodeR 0x00#6 rs rt rd 0x00#5 0x2D#6
  | .ext rt rs pos size => encodeR 0x1F#6 rs rt (BitVec.ofNat 5 (size - 1)) pos 0x00#6
  | .ins rt rs pos msb => encodeR 0x1F#6 rs rt msb pos 0x04#6
  | .wsbh rd rt => encodeR 0x1F#6 0x00#5 rt rd 0x02#5 0x20#6
  | .wsbw rd rt => encodeR 0x1F#6 0x00#5 rt rd 0x03#5 0x20#6
  | .seb rd rt => encodeR 0x1F#6 0x00#5 rt rd 0x10#5 0x20#6
  | .bitrev rd rt => encodeR 0x1F#6 0x00#5 rt rd 0x14#5 0x20#6
  | .seh rd rt => encodeR 0x1F#6 0x00#5 rt rd 0x18#5 0x20#6
  | .addi rt rs imm => encodeI 0x08#6 rs rt imm
  | .addiu rt rs imm => encodeI 0x09#6 rs rt imm
  | .slti rt rs imm => encodeI 0x0A#6 rs rt imm
  | .sltiu rt rs imm => encodeI 0x0B#6 rs rt imm
  | .andi rt rs imm => encodeI 0x0C#6 rs rt imm
  | .ori rt rs imm => encodeI 0x0D#6 rs rt imm
  | .xori rt rs imm => encodeI 0x0E#6 rs rt imm
  | .lui rt imm => encodeI 0x0F#6 0x00#5 rt imm
  | .mfhi rd => encodeR 0x00#6 0x00#5 0x00#5 rd 0x00#5 0x10#6
  | .mthi rs => encodeR 0x00#6 rs 0x00#5 0x00#5 0x00#5 0x11#6
  | .mflo rd => encodeR 0x00#6 0x00#5 0x00#5 rd 0x00#5 0x12#6
  | .mtlo rs => encodeR 0x00#6 rs 0x00#5 0x00#5 0x00#5 0x13#6
  | .mult rs rt => encodeR 0x00#6 rs rt 0x00#5 0x00#5 0x18#6
  | .multu rs rt => encodeR 0x00#6 rs rt 0x00#5 0x00#5 0x19#6
  | .madd rs rt => encodeR 0x00#6 rs rt 0x00#5 0x00#5 0x1C#6
  | .maddu rs rt => encodeR 0x00#6 rs rt 0x00#5 0x00#5 0x1D#6
  | .msub rs rt => encodeR 0x00#6 rs rt 0x00#5 0x00#5 0x2E#6
  | .msubu rs rt => encodeR 0x00#6 rs rt 0x00#5 0x00#5 0x2F#6
  | .div rs rt => encodeR 0x00#6 rs rt 0x00#5 0x00#5 0x1A#6
  | .divu rs rt => encodeR 0x00#6 rs rt 0x00#5 0x00#5 0x1B#6
  | .lb rt base offset => encodeI 0x20#6 base rt offset
  | .lh rt base offset => encodeI 0x21#6 base rt offset
  | .lwl rt base offset => encodeI 0x22#6 base rt offset
  | .lw rt base offset => encodeI 0x23#6 base rt offset
  | .lbu rt base offset => encodeI 0x24#6 base rt offset
  | .lhu rt base offset => encodeI 0x25#6 base rt offset
  | .lwr rt base offset => encodeI 0x26#6 base rt offset
  | .sb rt base offset => encodeI 0x28#6 base rt offset
  | .sh rt base offset => encodeI 0x29#6 base rt offset
  | .swl rt base offset => encodeI 0x2A#6 base rt offset
  | .sw rt base offset => encodeI 0x2B#6 base rt offset
  | .swr rt base offset => encodeI 0x2E#6 base rt offset
  | .lwc1 ft base offset => encodeI 0x31#6 base ft offset
  | .swc1 ft base offset => encodeI 0x39#6 base ft offset
  | .cache op base offset => encodeI 0x2F#6 base op offset
  | .beq rs rt offset => encodeI 0x04#6 rs rt offset
  | .bne rs rt offset => encodeI 0x05#6 rs rt offset
  | .blez rs offset => encodeI 0x06#6 rs 0x00#5 offset
  | .bgtz rs offset => encodeI 0x07#6 rs 0x00#5 offset
  | .beql rs rt offset => encodeI 0x14#6 rs rt offset
  | .bnel rs rt offset => encodeI 0x15#6 rs rt offset
  | .blezl rs offset => encodeI 0x16#6 rs 0x00#5 offset
  | .bgtzl rs offset => encodeI 0x17#6 rs 0x00#5 offset
  | .bltz rs offset => encodeI 0x01#6 rs 0x00#5 offset
  | .bgez rs offset => encodeI 0x01#6 rs 0x01#5 offset
  | .bltzl rs offset => encodeI 0x01#6 rs 0x02#5 offset
  | .bgezl rs offset => encodeI 0x01#6 rs 0x03#5 offset
  | .bltzal rs offset => encodeI 0x01#6 rs 0x10#5 offset
  | .bgezal rs offset => encodeI 0x01#6 rs 0x11#5 offset
  | .bltzall rs offset => encodeI 0x01#6 rs 0x12#5 offset
  | .bgezall rs offset => encodeI 0x01#6 rs 0x13#5 offset
  | .j target => encodeJ 0x02#6 target
  | .jal target => encodeJ 0x03#6 target
  | .jr rs => encodeR 0x00#6 rs 0x00#5 0x00#5 0x00#5 0x08#6
  | .jalr rd rs => encodeR 0x00#6 rs 0x00#5 rd 0x00#5 0x09#6
  | .mfc1 rt fs => encodeR 0x11#6 0x00#5 rt fs 0x00#5 0x00#6
  | .mtc1 rt fs => encodeR 0x11#6 0x04#5 rt fs 0x00#5 0x00#6
  | .cfc1 rt fs => encodeR 0x11#6 0x02#5 rt fs 0x00#5 0x00#6
  | .ctc1 rt fs => encodeR 0x11#6 0x06#5 rt fs 0x00#5 0x00#6
  | .bc1f offset => encodeI 0x11#6 0x08#5 0x00#5 offset
  | .bc1t offset => encodeI 0x11#6 0x08#5 0x01#5 offset
  | .bc1fl offset => encodeI 0x11#6 0x08#5 0x02#5 offset
  | .bc1tl offset => encodeI 0x11#6 0x08#5 0x03#5 offset
  | .addS fd fs ft => encodeR 0x11#6 0x10#5 ft fs fd 0x00#6
  | .subS fd fs ft => encodeR 0x11#6 0x10#5 ft fs fd 0x01#6
  | .mulS fd fs ft => encodeR 0x11#6 0x10#5 ft fs fd 0x02#6
  | .divS fd fs ft => encodeR 0x11#6 0x10#5 ft fs fd 0x03#6
  | .sqrtS fd fs => encodeR 0x11#6 0x10#5 0x00#5 fs fd 0x04#6
  | .absS fd fs => encodeR 0x11#6 0x10#5 0x00#5 fs fd 0x05#6
  | .movS fd fs => encodeR 0x11#6 0x10#5 0x00#5 fs fd 0x06#6
  | .negS fd fs => encodeR 0x11#6 0x10#5 0x00#5 fs fd 0x07#6
  | .cvtSW fd fs => encodeR 0x11#6 0x14#5 0x00#5 fs fd 0x20#6
  | .roundWS fd fs => encodeR 0x11#6 0x10#5 0x00#5 fs fd 0x0C#6
  | .cvtWS fd fs => encodeR 0x11#6 0x10#5 0x00#5 fs fd 0x24#6
  | .truncWS fd fs => encodeR 0x11#6 0x10#5 0x00#5 fs fd 0x0D#6
  | .ceilWS fd fs => encodeR 0x11#6 0x10#5 0x00#5 fs fd 0x0E#6
  | .floorWS fd fs => encodeR 0x11#6 0x10#5 0x00#5 fs fd 0x0F#6
  | .cF fs ft => encodeR 0x11#6 0x10#5 ft fs 0x00#5 0x30#6
  | .cUn fs ft => encodeR 0x11#6 0x10#5 ft fs 0x00#5 0x31#6
  | .cEq fs ft => encodeR 0x11#6 0x10#5 ft fs 0x00#5 0x32#6
  | .cUeq fs ft => encodeR 0x11#6 0x10#5 ft fs 0x00#5 0x33#6
  | .cOlt fs ft => encodeR 0x11#6 0x10#5 ft fs 0x00#5 0x34#6
  | .cUlt fs ft => encodeR 0x11#6 0x10#5 ft fs 0x00#5 0x35#6
  | .cOle fs ft => encodeR 0x11#6 0x10#5 ft fs 0x00#5 0x36#6
  | .cUle fs ft => encodeR 0x11#6 0x10#5 ft fs 0x00#5 0x37#6
  | .cSf fs ft => encodeR 0x11#6 0x10#5 ft fs 0x00#5 0x38#6
  | .cNgle fs ft => encodeR 0x11#6 0x10#5 ft fs 0x00#5 0x39#6
  | .cSeq fs ft => encodeR 0x11#6 0x10#5 ft fs 0x00#5 0x3A#6
  | .cNgl fs ft => encodeR 0x11#6 0x10#5 ft fs 0x00#5 0x3B#6
  | .cLt fs ft => encodeR 0x11#6 0x10#5 ft fs 0x00#5 0x3C#6
  | .cNge fs ft => encodeR 0x11#6 0x10#5 ft fs 0x00#5 0x3D#6
  | .cLe fs ft => encodeR 0x11#6 0x10#5 ft fs 0x00#5 0x3E#6
  | .cNgt fs ft => encodeR 0x11#6 0x10#5 ft fs 0x00#5 0x3F#6
  | .syscall code => encodeCode code 0x0C#6
  | .brk code => encodeCode code 0x0D#6
  | .sync stype => encodeR 0x00#6 0x00#5 0x00#5 0x00#5 stype 0x0F#6
  | .cop0 w => w
  | .cop2 w => w
  | .special2 w => w
  | .vfpu0 w => w
  | .vfpu1 w => w
  | .vfpu3 w => w
  | .lvS w => w
  | .vfpu4 w => w
  | .lvlrQ w => w
  | .lvQ w => w
  | .vfpu5 w => w
  | .svS w => w
  | .vfpu6 w => w
  | .svlrQ w => w
  | .svQ w => w
  | .vfpu7 w => w
  | .ll w => w
  | .sc w => w

/-- The instruction the decoder reads from a table row's bits: bit 0 of `w` is the least significant bit of the word, and
bits from `nbits` up are 0. The word is laid out as memory holds it (R55) and given to the byte decoder. -/
def decodeTableWord (nbits w : Nat) : Option Instr :=
  let v : Word := BitVec.ofNat 32 (w % 2 ^ nbits)
  match decodeBytes [byteOfWord v 0, byteOfWord v 1, byteOfWord v 2, byteOfWord v 3] with
  | .ok (i, _) => some i
  | .error _ => none

end Sys2Proof
end

