-- ==== Sys2Proof/Config.lean ====
section
/-! DEFINITION. The parameters of spec/00_scope.md rule R7 as plain data, and the free values (draws, R15). -/

namespace Sys2Proof

/-! ## Free values

A draw (R15) is a value the model does not fix. It is an opaque constant applied to a counter of the
state, so nothing in Lean can evaluate it (notes/assumptions/7). -/

/-- The n-th draw: FCR31's unmodelled bits (R32), NaN results (R215), poisoned registers (R287), a new
thread's registers (R42). -/
opaque Config.draw : Nat → Word

/-- A screen coordinate, depth or texel coordinate that R371, R373 and R376 do not define because a
binary32 value is not finite: draw number, place (vertex or pixel), component. -/
opaque Config.geCoord : Nat → Nat → Nat → Int

/-- The bit offset of a texel in swizzled storage (bits per texel, pitch, x, y); R387 does not give the
swizzled layout (`TEX_SWIZZLE = decoded`). -/
opaque Config.swizzledOffset : Nat → Nat → Nat → Nat → Nat

/-- Channel 0 to 3 of a vertex colour of literal type (type code, the colour's elements, channel), modulo 256: C1 of
spec/90_conflicts.md gives a colour of these types no value. -/
opaque Config.geColour : Nat → List Word → Nat → Nat

/-- The element number that a float index of literal type gives (C1 of spec/90_conflicts.md). -/
opaque Config.geFloatIndex : Word → Nat

/-- An arbitrary `DIVU_BY_ZERO` function (R161): (HI, LO) of rs. -/
opaque Config.divuByZero : Word → Word × Word

/-- The arithmetic of an `FP_ARITH` other than the reference (R215): operation number, fs, ft, as `FP_FTZ` reads them. -/
opaque Config.fpArith : Nat → Word → Word → Word

/-! ## Parameters -/

/-- The kinds of physical region of `MEMORY_MAP` (R58). -/
inductive RegionKind where
  | scratchpad
  | vram
  | ram
  deriving DecidableEq, Repr

/-- One physical region of `MEMORY_MAP` (R58). -/
structure Region where
  base : Nat
  size : Nat
  kind : RegionKind
  deriving DecidableEq, Repr

/-- `OVERFLOW_MODE` (R110). -/
inductive OverflowMode where
  | halt
  | wrap
  deriving DecidableEq, Repr

/-- `DIVU_BY_ZERO` (R161): the reference, the admitted alternative, or an arbitrary function. -/
inductive DivuByZero where
  | reference
  | halfword
  | free
  deriving DecidableEq, Repr

/-- `FP_ARITH` (R215): the IEEE 754 reference, or another arithmetic that the model does not fix. -/
inductive FpArith where
  | ieeeNearestEven
  | other
  deriving DecidableEq, Repr

/-- `FP_FTZ` (R215). -/
inductive FtzMode where
  | gradual
  | flush
  deriving DecidableEq, Repr

/-- `CVT_NAN_RESULT` (R232). -/
inductive CvtNan where
  | intMax
  | intMin
  deriving DecidableEq, Repr

/-- `CVT_RANGE_RESULT` (R232): saturate, or the MIPS default 0x7FFFFFFF for both signs. -/
inductive CvtRange where
  | saturate
  | invalidDefault
  deriving DecidableEq, Repr

/-- `SEMA_WAKE_POLICY` (R331). -/
inductive SemaWakePolicy where
  | headBlocks
  | skip
  deriving DecidableEq, Repr

/-- `ALLOC_FIT` (R338). -/
inductive AllocFit where
  | first
  | best
  deriving DecidableEq, Repr

/-- `CULL_SENSE` (R378): the reference, or the opposite sense. -/
inductive CullSense where
  | reference
  | opposite
  deriving DecidableEq, Repr

/-- `TEX_SWIZZLE` (R387). -/
inductive TexSwizzle where
  | ignored
  | decoded
  deriving DecidableEq, Repr

/-- The host action of a fired interrupt event under `INTERRUPT_DISPATCH` (R292): wake the threads that wait for its source (the
reference), nothing, or host behaviour number `n`, which the model does not fix (notes/assumptions/23). -/
inductive InterruptAction where
  | wakeWaiters
  | nothing
  | other (n : Nat)
  deriving DecidableEq, Repr

/-- One segment of `TRANSLATE` (R59): virtual addresses `first` to `first + size - 1` go to `target` and up. -/
structure AddressSegment where
  first : Nat
  size : Nat
  target : Nat
  deriving DecidableEq, Repr

/-- What a command is under a `GE_COMMANDS` other than the reference (R362; notes/assumptions/15). -/
inductive GeMeaning where
  /-- the command that R362 numbers `command`; bit `i` of its parameter is bit `layout[i]` of the word's, and an empty layout moves
  no bit -/
  | command (command : BitVec 8) (layout : List Nat)
  /-- fields or actions that R362 does not have: a free list of GPU operations, number `n` -/
  | other (n : Nat)
  deriving DecidableEq, Repr

/-- One command that differs from the reference `GE_COMMANDS` (R362): command number `number` of a list means `meaning`. -/
structure GeCommand where
  number : BitVec 8
  meaning : GeMeaning
  deriving DecidableEq, Repr

/-- The types of a vertex's colour and index (R369, C1 of spec/90_conflicts.md): the packed colours and the three index codes of
R369, or the source's literal reading, in which each is none, byte, short or float like every other component and a colour has
`channels` elements (notes/assumptions/15). -/
inductive VertexTypes where
  | packed
  | literal (channels : Nat)
  deriving DecidableEq, Repr

/-- `TIMEOUT_MIN` of one primitive kind (R323), in microseconds. -/
structure TimeoutMin where
  threshold : Nat
  latency : Nat
  deriving DecidableEq, Repr

/-- `KERNEL_STATUS` (R322; reference values of 93_implementation_defined.md Part 3). -/
structure KernelStatus where
  timeout : Word
  cancel : Word
  delete : Word
  unknownUid : Word
  invalidArgument : Word
  wrongState : Word
  resourceExhausted : Word
  deriving DecidableEq, Repr

/-- The parameters of R7 that the model leaves open. They are a field of the state that no step changes, so a
statement about every state holds for every value of them (notes/assumptions/5). -/
structure Params where
  memoryMap : List Region
  /-- `TRANSLATE` (R59); an address in no segment is unmapped, and the first segment that holds an address maps it -/
  segments : List AddressSegment
  overflowMode : OverflowMode
  divuByZero : DivuByZero
  fcr0 : Word
  fpArith : FpArith
  fpFtz : FtzMode
  cvtNan : CvtNan
  cvtRange : CvtRange
  callbackReturnAddr : Word
  /-- `CPI`, cycles charged per instruction (R40) -/
  cpi : Nat
  timeoutSemaphore : TimeoutMin
  timeoutMutex : TimeoutMin
  timeoutEventFlag : TimeoutMin
  cyclesPerUs : Nat
  status : KernelStatus
  semaWakePolicy : SemaWakePolicy
  allocFit : AllocFit
  allocDefaultAlign : Nat
  mainThreadPriority : Nat
  mainThreadStack : Nat
  geMaxLists : Nat
  geStackDepth : Nat
  cullSense : CullSense
  clut16Supported : Bool
  texSwizzle : TexSwizzle
  /-- `TEXCACHE_EVICT_FRAMES`, which R389 makes unobservable: nothing reads it (notes/assumptions/14) -/
  texcacheEvictFrames : Nat
  /-- `GE_COMMANDS` (R362): the commands that differ from the reference map -/
  geCommands : List GeCommand
  /-- `GE_COMMANDS` (R362, R369): the types that the codes of VERTEXTYPE name -/
  vertexTypes : VertexTypes
  /-- `INTERRUPT_DISPATCH` (R292), by source; a source that is not listed wakes its waiters -/
  interruptDispatch : List (Nat × InterruptAction)
  /-- `UID_SLOTS` (R305) -/
  uidSlots : Nat
  deriving DecidableEq, Repr

/-- The reference `MEMORY_MAP` of R58. -/
def Config.referenceMap : List Region :=
  [ { base := 0x00010000, size := 0x4000, kind := .scratchpad },
    { base := 0x04000000, size := 0x200000, kind := .vram },
    { base := 0x08000000, size := 0x800000, kind := .ram },
    { base := 0x08800000, size := 0x1800000, kind := .ram } ]

/-- The reference `TRANSLATE` of R59: `va[31:29]` one of 0b000, 0b010, 0b100, 0b101, each onto the low 29 bits. -/
def Config.referenceSegments : List AddressSegment :=
  [ { first := 0x00000000, size := 0x20000000, target := 0 },
    { first := 0x40000000, size := 0x20000000, target := 0 },
    { first := 0x80000000, size := 0x20000000, target := 0 },
    { first := 0xA0000000, size := 0x20000000, target := 0 } ]

/-- The reference values of R7. `callbackReturnAddr`, `cpi` and `texcacheEvictFrames` have no reference: the model names
0x08000000, 1 and 1 (notes/assumptions/6). -/
def Config.reference : Params where
  memoryMap := Config.referenceMap
  segments := Config.referenceSegments
  overflowMode := .halt
  divuByZero := .reference
  fcr0 := 0x00003351#32
  fpArith := .ieeeNearestEven
  fpFtz := .gradual
  cvtNan := .intMax
  cvtRange := .saturate
  callbackReturnAddr := 0x08000000#32
  cpi := 1
  timeoutSemaphore := { threshold := 0, latency := 0 }
  timeoutMutex := { threshold := 0, latency := 0 }
  timeoutEventFlag := { threshold := 0, latency := 0 }
  cyclesPerUs := 222
  status :=
    { timeout := 0x800201A8#32, cancel := 0x800201A9#32, delete := 0x800201B5#32
      unknownUid := 0x800200CB#32, invalidArgument := 0x800200D2#32
      wrongState := 0x800201A4#32, resourceExhausted := 0x80020190#32 }
  semaWakePolicy := .headBlocks
  allocFit := .first
  allocDefaultAlign := 256
  mainThreadPriority := 0x20
  mainThreadStack := 0x40000
  geMaxLists := 64
  geStackDepth := 32
  cullSense := .reference
  clut16Supported := false
  texSwizzle := .ignored
  texcacheEvictFrames := 1
  geCommands := []
  vertexTypes := .packed
  interruptDispatch := []
  uidSlots := 4096

end Sys2Proof
end

