-- ==== Sys2Proof/Machine/State.lean ====
section
/-! DEFINITION. The state of the machine as plain data: the CPU (spec/10_state.md), memory (spec/20_memory.md), the kernel
agent (spec/61_kernel_scheduler.md, spec/60_exceptions.md) and the GPU agent (spec/62_gpu_pipeline.md); the reasons a step
can stop; and the state after reset (spec/70_reset_and_hazards.md). -/

namespace Sys2Proof.Machine

/-! ## CPU (R20 to R43) -/

/-- `vpfx` (R36): the source, target and destination prefixes, opaque. Their width is the model's
(notes/assumptions/18). -/
structure Vpfx where
  source : Word
  target : Word
  dest : Word
  deriving DecidableEq, Repr

/-- The CPU context of R38: all of R20 but `run` and the constant `x[0]`. -/
structure Context where
  /-- `x[1]` to `x[31]`, at index 0 to 30 (R22); `x[0]` is a constant and is not stored (R21) -/
  gpr : Vector Word 31
  hi : Word
  lo : Word
  pc : Word
  nextPc : Word
  /-- the instruction at `pc` is a delay slot (R26) -/
  ds : Bool
  fpr : Vector Word 32
  fcr31 : Word
  vpr : Vector Word 128
  vpfx : Vpfx
  deriving DecidableEq, Repr

/-- The halt reasons of R281, codes 1 to 11 in order. -/
inductive HaltReason where
  | unrecognizedOpcode (w : Word) (a : Word)
  | fetchMisaligned (a : Word)
  | fetchUnmapped (a : Word)
  | addressMisaligned (ea : Word) (n : Nat)
  | addressUnmapped (ea : Word) (n : Nat)
  | integerOverflow (a : Word)
  | branchInDelaySlot (a : Word)
  | unpredictableOperand (a : Word)
  | break_ (code : BitVec 20) (a : Word)
  | unsupportedFcr (fs : BitVec 5)
  | strayCallbackReturn (a : Word)
  deriving DecidableEq, Repr

/-- The refused opcode groups (R104, R262 to R279). -/
inductive RefusedGroup where
  | cop0
  | cop2
  | special2
  | vfpu0
  | vfpu1
  | vfpu3
  | lvS
  | vfpu4
  | lvlrQ
  | lvQ
  | vfpu5
  | svS
  | vfpu6
  | svlrQ
  | svQ
  | vfpu7
  | ll
  | sc
  deriving DecidableEq, Repr

/-! ## Kernel agent (R305 to R345) -/

/-- The thread states of R308. -/
inductive ThreadState where
  | run
  | ready
  | wait
  | waitSuspend
  | suspend
  | dormant
  deriving DecidableEq, Repr

/-- Why a thread waits (R308 `wait_reason`); the number is the UID of the primitive, the id of the list, or the number of
the awaited event. `sleep` and `delay` are R309's waits without a queue. -/
inductive WaitReason where
  | sleep
  | delay
  | signal (source : Nat)
  | semaphore (uid : Nat)
  | mutex (uid : Nat)
  | eventFlag (uid : Nat)
  | geList (id : Nat)
  deriving DecidableEq, Repr

/-- The wait outcome cell `wo` of R320. -/
structure WaitObject where
  ended : Bool
  result : Option Word
  deriving DecidableEq, Repr

/-- The pending-wait snapshot of R329: the wait a callback interrupted. -/
structure WaitSnapshot where
  reason : Option WaitReason
  waitObject : Nat
  deriving DecidableEq, Repr

/-- A Thread object (R308). -/
structure Thread where
  context : Context
  priority : Fin 128
  initPriority : Fin 128
  state : ThreadState
  waitReason : Option WaitReason
  waitAllowsCallbacks : Bool
  /-- the thread's own "allows callbacks" of R313 (notes/assumptions/19) -/
  allowsCallbacks : Bool
  /-- "explicitly reentrant" (R327) -/
  reentrant : Bool
  /-- UID of the owning module, 0 for none -/
  module : Nat
  stackBase : Nat
  stackSize : Nat
  callbacksPending : List Nat
  callbacksRunning : List Nat
  callbackStack : List (Context × Option WaitSnapshot)
  /-- number of the current wait outcome cell (R320) -/
  waitObject : Option Nat
  entry : Word
  gp : Word
  argLength : Word
  argAddress : Word
  deriving DecidableEq, Repr

/-- The match mode of an event flag (R335). -/
inductive FlagMode where
  | and
  | or
  deriving DecidableEq, Repr

/-- The primitive-specific condition of a wait record (R325): the needed count, the requested lock count, or the pattern
with its mode, clear and output cell. -/
inductive WaitCond where
  | need (n : Nat)
  | locks (n : Nat)
  | bits (pattern : Word) (mode : FlagMode) (clear : Bool) (out : Word)
  deriving DecidableEq, Repr

/-- A wait record (R325). -/
structure WaitRecord where
  thread : Nat
  waitObject : Nat
  timer : Option Nat
  cond : WaitCond
  deriving DecidableEq, Repr

/-- A semaphore (R331). -/
structure Semaphore where
  count : Nat
  max : Nat
  priorityOrdered : Bool
  queue : List WaitRecord
  deriving DecidableEq, Repr

/-- A mutex (R333). -/
structure Mutex where
  owner : Option Nat
  lockCount : Nat
  priorityOrdered : Bool
  queue : List WaitRecord
  deriving DecidableEq, Repr

/-- An event flag (R335). -/
structure EventFlag where
  pattern : Word
  priorityOrdered : Bool
  queue : List WaitRecord
  deriving DecidableEq, Repr

/-- A callback (R326). -/
structure Callback where
  thread : Nat
  entry : Word
  common : Word
  notifyCount : Word
  notifyArg : Word
  deriving DecidableEq, Repr

/-- The payload of a kernel object (R305); the constructor is the type tag. Modules, files and directories belong to the
loader and filesystem layers (R343). -/
inductive Payload where
  | thread (t : Thread)
  | semaphore (x : Semaphore)
  | mutex (x : Mutex)
  | eventFlag (x : EventFlag)
  | callback (x : Callback)
  | module (entry : Word) (gp : Word)
  | memoryBlock (address : Nat)
  | file
  | directory
  deriving DecidableEq, Repr

/-- A kernel object (R305). -/
structure KernelObject where
  name : String
  payload : Payload
  deriving DecidableEq, Repr

/-- A node of an allocator's list (R337). -/
structure Block where
  start : Nat
  size : Nat
  free : Bool
  name : String
  deriving DecidableEq, Repr

/-- An allocator over `[start, start + size)` (R337). -/
structure Allocator where
  start : Nat
  size : Nat
  blocks : List Block
  deriving DecidableEq, Repr

/-- The host action of a pending event (R299): a wait timeout (R323), the end of a delay, or an interrupt or completion of
the given source (R292). -/
inductive EventAction where
  | waitTimeout (thread : Nat) (waitObject : Nat) (cell : Word) (reason : WaitReason)
  | delayEnd (thread : Nat) (waitObject : Nat)
  | signal (source : Nat)
  deriving DecidableEq, Repr

/-- A pending event of the event timer (R297). -/
structure Event where
  handle : Nat
  due : Nat
  action : EventAction
  deriving DecidableEq, Repr

/-- The kernel and GPU operations of 61_kernel_scheduler.md and 62_gpu_pipeline.md that a host call can perform. Their argument
registers are the model's (notes/assumptions/10). -/
inductive KernelCall where
  | exitProcess
  | getCycles
  | createThread
  | startThread
  | exitThread
  | deleteThread
  | changePriority
  | yieldThread
  | rotateReady
  | suspendThread
  | resumeThread
  | setCallbackMode
  | sleepThread
  | wakeupThread
  | delayThread
  | waitSignal
  | scheduleSignal
  | unscheduleSignal
  | createSemaphore
  | waitSemaphore
  | signalSemaphore
  | cancelSemaphore
  | deleteSemaphore
  | createMutex
  | lockMutex
  | unlockMutex
  | cancelMutex
  | deleteMutex
  | createEventFlag
  | waitEventFlag
  | setEventFlag
  | clearEventFlag
  | cancelEventFlag
  | deleteEventFlag
  | createCallback
  | deleteCallback
  | notifyCallback
  | allocMemory
  | allocMemoryAt
  | freeMemory
  | geListEnqueue
  | geListUpdateStall
  | geListSync
  | geDrawSync
  deriving DecidableEq, Repr

/-- The host behaviour of an `HLE_IMPORTS` entry (R286): R288's unimplemented call, one operation of the kernel or the GPU, or
behaviour number `n` of the shim layer that R6 leaves out, which the model does not fix: a free list of host operations
(`Config.hostScript`, notes/assumptions/10). -/
inductive HleBehaviour where
  | unimplemented
  | call (op : KernelCall)
  | other (n : Nat)
  deriving DecidableEq, Repr

/-- One thing a host behaviour does (R286 step 3, R292): a write to guest memory, an operation of the kernel or the GPU with
arguments of its own, the end of the waits for an event source (R299), a file or directory object made or an object of the
loader or filesystem layer removed (R343), or a result for the guest (R287). -/
inductive HostOp where
  | store (address : Word) (bytes : List Byte)
  | call (op : KernelCall) (args : List Word)
  | wake (source : Nat) (result : Option Word)
  | createFile (name : String)
  | createDirectory (name : String)
  | remove (uid : Nat)
  | result (low : Word)
  | resultHigh (high : Word)
  deriving DecidableEq, Repr

/-- An entry of `HLE_IMPORTS` (R286): the names, the behaviour and the poison opt-out flag of R287. -/
structure HleImport where
  moduleName : String
  nid : Word
  behaviour : HleBehaviour
  optOut : Bool
  deriving DecidableEq, Repr

/-! ## Host actions in progress (R37, R286, R292, R356) -/

/-- Where an event fires (R298): between the steps of a running CPU, before a host call or a callback return, or while the CPU does
not step. -/
inductive EventPoint where
  | running
  | hleCall (code : BitVec 20)
  | callbackReturn
  | notStepping
  deriving DecidableEq, Repr

/-- What a script of host operations serves: a host call, with the opt-out flag of its import (R286, R287), or a fired event, with
the point where it fired (R292). -/
inductive ScriptOrigin where
  | call (optOut : Bool)
  | event (point : EventPoint)
  deriving DecidableEq, Repr

/-- A script in progress: the operations that are left, the results and the ask for `Reschedule` so far, and what it serves. The
model's own, for a script that `RunLists` divides (R355, R356; notes/assumptions/13). -/
structure HostScript where
  ops : List HostOp
  v0 : Option Word
  v1 : Option Word
  resched : Option Bool
  origin : ScriptOrigin
  deriving DecidableEq, Repr

/-- What the kernel agent is servicing while the CPU is `InHost` (R37, R286, R290). `geLists` is `RunLists()` (R356), held as a phase
of its own so that one step executes one command: at the end of a host call, or inside a script, which goes on after it as `script`
(notes/assumptions/13). -/
inductive HostEvent where
  | hleCall (code : BitVec 20)
  | callbackReturn
  | geLists (rest : Option HostScript)
  | script (rest : HostScript)
  deriving DecidableEq, Repr

/-- `run` (R37), with `notStepping` for the CPU that no thread has been switched into (R41, R42) or that has no current
thread (R291). -/
inductive RunStatus where
  | notStepping
  | running
  | inHost (e : HostEvent)
  | halted (r : HaltReason)
  | refused (g : RefusedGroup) (w : Word) (a : Word)
  deriving DecidableEq, Repr

/-! ## The kernel's state -/

/-- The kernel agent's state. -/
structure Kernel where
  /-- the occupied slots of the UID table, UIDs strictly rising (R305) -/
  objects : List (Nat × KernelObject)
  uidNext : Nat
  /-- the current thread's UID, `none` for -1 (R309) -/
  current : Option Nat
  /-- `ready[p]` (R311) -/
  ready : Vector (List Nat) 128
  /-- wait outcome cells in use (R320), and the number of the next -/
  waitObjects : List (Nat × WaitObject)
  nextWaitObject : Nat
  /-- pending events in the order they were scheduled (R297, R298), and the next handle -/
  events : List Event
  nextHandle : Nat
  userAllocator : Allocator
  kernelAllocator : Allocator
  imports : List HleImport
  /-- a host behaviour has requested exit (R296) -/
  closing : Bool
  /-- an event has requested `Reschedule()`, which runs before the next CPU step (R298) -/
  reschedRequested : Bool
  deriving DecidableEq, Repr

/-! ## GPU agent (R351 to R400) -/

/-- The status of a display list (R354). -/
inductive ListStatus where
  | queued
  | running
  | stalled
  | completed
  deriving DecidableEq, Repr

/-- A display-list record (R354). `finished` is what FINISH records (R360). -/
structure GeList where
  start : Word
  current : Word
  stall : Word
  valid : Bool
  status : ListStatus
  waiters : List Nat
  callStack : List (Word × Word)
  finished : Bool
  deriving DecidableEq, Repr

/-- A texture cache entry (R389): its key, its source range as the (first byte, size) of each piece in physical memory, and its
dirty mark. The decoded texels are not stored: they are a function of the snapshot at PRIM start (notes/assumptions/14). -/
structure TexEntry where
  address : Word
  format : BitVec 4
  width : Nat
  height : Nat
  pitch : Nat
  clutFormat : BitVec 24
  ranges : List (Nat × Nat)
  dirty : Bool
  deriving DecidableEq, Repr

/-- The GPU state of R352. -/
structure Gpu where
  reg : Vector (BitVec 24) 256
  world : Vector Word 12
  worldN : Nat
  view : Vector Word 12
  viewN : Nat
  proj : Vector Word 16
  projN : Nat
  clut : Vector Byte 1024
  vaddr : Word
  iaddr : Word
  offsetAddr : Word
  /-- the pool of list records by id, ids strictly rising (R354) -/
  lists : List (Nat × GeList)
  /-- ids of the queued lists in enqueue order (R354) -/
  queue : List Nat
  texCache : List TexEntry
  deriving DecidableEq, Repr

/-! ## The loader's hand-off (R402 to R404) -/

/-- A segment of a module: its address, its file image and its size in memory (R404). -/
structure Segment where
  address : Word
  bytes : List Byte
  memSize : Nat
  deriving DecidableEq, Repr

/-- An entry of the stub table (R402, R403). -/
structure Stub where
  moduleName : String
  nid : Word
  patch : Word
  deriving DecidableEq, Repr

/-- What the loader hands the kernel (R402), with the `HLE_IMPORTS` table of the kernel that boots (notes/assumptions/11). -/
structure LoadImage where
  name : String
  segments : List Segment
  entry : Word
  gp : Word
  stubs : List Stub
  imports : List HleImport
  deriving DecidableEq, Repr

/-! ## The machine -/

/-- The whole machine. -/
structure State where
  /-- the open parameters of R7; no step changes them -/
  par : Params
  cpu : Context
  run : RunStatus
  /-- `cycles` (R40) -/
  cycles : Nat
  /-- physical memory in canonical form (R54): addresses strictly rising, no entry 0 -/
  mem : List Host.Cell
  kernel : Kernel
  gpu : Gpu
  /-- the loader's hand-off, until the kernel has booted it (R404) -/
  loader : Option LoadImage
  /-- the model's own counter of draws taken (notes/assumptions/7) -/
  draws : Nat
  deriving DecidableEq, Repr

/-- Why a step faults. -/
inductive Fault where
  /-- raised by `step` on a machine that has halted (R37, R295): the halt itself is a next state whose `run` is
  `halted r`, and nothing happens after it. Safe. -/
  | halted (r : HaltReason)
  deriving DecidableEq, Repr

/-- Why a step refuses. -/
inductive Refusal where
  /-- an instruction whose arm of `exec` has no meaning yet; none at present. Safe. -/
  | notModelled (mnemonic : String)
  /-- raised by the 18 refused opcode groups (R261, R283), with the final state of R283. Safe. -/
  | refusedGroup (g : RefusedGroup) (w : Word) (a : Word) (final : State)
  /-- raised by the boot step when the allocator or the UID table has no place for a segment or the main thread (R404 gives no
  effect). Safe. -/
  | loadFailed
  deriving DecidableEq, Repr

/-- The outcome of a step or of an instruction. -/
abbrev Out := Host.Outcome State Fault Refusal

/-! ## Reset (R401, R404 steps 1 to 3) -/

/-- The CPU at creation (R42). Its draws are 0 here (notes/assumptions/3). -/
def Context.reset : Context where
  gpr := Vector.replicate 31 0#32
  hi := 0#32
  lo := 0#32
  pc := 0#32
  nextPc := 0#32
  ds := false
  fpr := Vector.replicate 32 0#32
  fcr31 := 0#32
  vpr := Vector.replicate 128 0#32
  vpfx := { source := 0#32, target := 0#32, dest := 0#32 }

/-- An allocator of one free block (R337). -/
def Allocator.create (start size : Nat) : Allocator where
  start := start
  size := size
  blocks := [{ start := start, size := size, free := true, name := "" }]

/-- The kernel at creation (R404 step 2, R306). The allocators cover the reference partitions (R345). Whether a kernel allocator
exists, and what it holds, R345 leaves open: here it exists, as one free block that no operation uses (notes/assumptions/42). -/
def Kernel.reset : Kernel where
  objects := []
  uidNext := 1
  current := none
  ready := Vector.replicate 128 []
  waitObjects := []
  nextWaitObject := 0
  events := []
  nextHandle := 0
  userAllocator := Allocator.create 0x08800000 0x1800000
  kernelAllocator := Allocator.create 0x08000000 0x800000
  imports := []
  closing := false
  reschedRequested := false

/-- The GPU at creation (R353). -/
def Gpu.reset : Gpu where
  reg := Vector.replicate 256 0#24
  world := Vector.replicate 12 0#32
  worldN := 0
  view := Vector.replicate 12 0#32
  viewN := 0
  proj := Vector.replicate 16 0#32
  projN := 0
  clut := Vector.replicate 1024 0#8
  vaddr := 0#32
  iaddr := 0#32
  offsetAddr := 0#32
  lists := []
  queue := []
  texCache := []

/-- What host behaviour number `n` does in state `s` (R286, R292): free, for a behaviour that the spec leaves to a parameter
(notes/assumptions/10). -/
opaque Config.hostScript : Nat → State → List HostOp

/-- The machine at creation (R401, R404): the CPU does not step, and nothing has been loaded. -/
def State.reset : State where
  par := Config.reference
  cpu := Context.reset
  run := .notStepping
  cycles := 0
  mem := []
  kernel := Kernel.reset
  gpu := Gpu.reset
  loader := none
  draws := 0

end Sys2Proof.Machine
end

