-- ==== Sys2Proof/Machine/Ops.lean ====
section
/-! DEFINITION. The named operations over registers, memory and the run status: register access (spec/10_state.md), the
access primitives (spec/20_memory.md), how a step halts, refuses or enters the host (spec/60_exceptions.md), and the event
timer's operations (R297). -/

namespace Sys2Proof.Machine

/-! ## Registers (R21, R22, R28) -/

/-- `x[r]`; register 0 reads 0 (R21). -/
def Context.x (c : Context) (r : Reg) : Word :=
  if r = 0#5 then 0#32 else c.gpr[r.toNat - 1]'(by have := r.isLt; omega)

/-- `x[r] <- v`; a write to register 0 is dropped (R21). -/
def Context.setX (c : Context) (r : Reg) (v : Word) : Context :=
  if r = 0#5 then c else { c with gpr := c.gpr.set (r.toNat - 1) v (by have := r.isLt; omega) }

/-- `f[r]` (R28). -/
def Context.f (c : Context) (r : FReg) : Word :=
  c.fpr[r.toNat]'(by have := r.isLt; omega)

/-- `f[r] <- v` (R28). -/
def Context.setF (c : Context) (r : FReg) (v : Word) : Context :=
  { c with fpr := c.fpr.set r.toNat v (by have := r.isLt; omega) }

/-- The pc advance of R25. -/
def Context.advance (c : Context) : Context :=
  { c with pc := c.nextPc, nextPc := c.nextPc + 4#32, ds := false }

/-- `pc <- a` with the straight-line `next_pc` (R24, R43). -/
def Context.jumpTo (c : Context) (a : Word) : Context :=
  { c with pc := a, nextPc := a + 4#32, ds := false }

/-- `x[r]`. -/
def State.x (s : State) (r : Reg) : Word := s.cpu.x r

/-- `x[r] <- v`. -/
def State.setX (s : State) (r : Reg) (v : Word) : State := { s with cpu := s.cpu.setX r v }

/-- `f[r]`. -/
def State.f (s : State) (r : FReg) : Word := s.cpu.f r

/-- `f[r] <- v`. -/
def State.setF (s : State) (r : FReg) (v : Word) : State := { s with cpu := s.cpu.setF r v }

/-- `HI || LO` (R23). -/
def State.hilo (s : State) : DWord := s.cpu.hi ++ s.cpu.lo

/-- `HI <- h; LO <- l` (R23). -/
def State.setHiLo (s : State) (h l : Word) : State := { s with cpu := { s.cpu with hi := h, lo := l } }

/-- `HI || LO <- p` (R23). -/
def State.setAcc (s : State) (p : DWord) : State := s.setHiLo (p.extractLsb' 32 32) (p.extractLsb' 0 32)

/-- `FCR31 <- v` (R29). -/
def State.setFcr31 (s : State) (v : Word) : State := { s with cpu := { s.cpu with fcr31 := v } }

/-- The pc advance of R25. -/
def State.advance (s : State) : State := { s with cpu := s.cpu.advance }

/-! ## Draws (R15) -/

/-- `n` draws have been taken. -/
def State.drew (s : State) (n : Nat) : State := { s with draws := s.draws + n }

/-! ## Halts, refusals and the host (R280 to R283, R286)

The hardware takes no exception (R285). What stands in its place is the halt: one operation, used by every instruction that
halts. Entry to the host is `State.enterHost`; the return is `State.resume`. -/

/-- The state of a halt after the pc advance (R282): the state before the step with only the advance applied, and
`run <- Halted(r)`. `cycles` is not charged. -/
def State.halted (s : State) (r : HaltReason) : State := { s.advance with run := .halted r }

/-- `raise Halt(r)` in an instruction (R282). -/
def State.halt (s : State) (r : HaltReason) : Out := .next (s.halted r)

/-- `raise Halt(r)` before the pc advance: the fetch halts (R282), and the halts of a host action
(notes/assumptions/21). -/
def State.haltHere (s : State) (r : HaltReason) : State := { s with run := .halted r }

/-- `refuse(g, w, A)` (R261, R283). -/
def State.refuse (s : State) (g : RefusedGroup) (w : Word) : Out :=
  .refused (.refusedGroup g w s.cpu.pc { s.advance with run := .refused g w s.cpu.pc })

/-- `run <- InHost(e)` (R286, R290). -/
def State.enterHost (s : State) (e : HostEvent) : State := { s with run := .inHost e }

/-- `run <- Running` (R286 step 6, R289). -/
def State.resume (s : State) : State := { s with run := .running }

/-- `k v` where `r` is a value, the halt where it is one. -/
def State.orHalt {α : Type} (s : State) (r : Except HaltReason α) (k : α → State) : Out :=
  match r with
  | .ok v => .next (k v)
  | .error h => s.halt h

/-- The numeric code a model reports for a halt (R281). -/
def HaltReason.code (r : HaltReason) : Nat :=
  match r with
  | .unrecognizedOpcode _ _ => 1
  | .fetchMisaligned _ => 2
  | .fetchUnmapped _ => 3
  | .addressMisaligned _ _ => 4
  | .addressUnmapped _ _ => 5
  | .integerOverflow _ => 6
  | .branchInDelaySlot _ => 7
  | .unpredictableOperand _ => 8
  | .break_ _ _ => 9
  | .unsupportedFcr _ => 10
  | .strayCallbackReturn _ => 11

/-! ## Physical memory in canonical form (R54) -/

/-- What a byte that nothing has written reads as (R54 gives a draw; notes/assumptions/4). -/
def Memory.unlisted : Byte := 0#8

/-- The byte at physical address `a`. -/
def Memory.read : List Host.Cell → Nat → Byte
  | [], _ => Memory.unlisted
  | (k, b) :: rest, a => if k = a then b else Memory.read rest a

/-- Byte `a` becomes `v`. -/
def Memory.write : List Host.Cell → Nat → Byte → List Host.Cell
  | [], a, v => if v = Memory.unlisted then [] else [(a, v)]
  | (k, b) :: rest, a, v =>
    if a < k then (if v = Memory.unlisted then (k, b) :: rest else (a, v) :: (k, b) :: rest)
    else if a = k then (if v = Memory.unlisted then rest else (a, v) :: rest)
    else (k, b) :: Memory.write rest a v

/-- The canonical form: addresses strictly rising, and no entry that reads as an unlisted address does. -/
def Memory.wf : List Host.Cell → Bool
  | [] => true
  | (k, b) :: rest => b != Memory.unlisted && rest.all (fun c => decide (k < c.1)) && Memory.wf rest

/-- The bytes `bs` at `a` and up. -/
def Memory.writeList : List Host.Cell → Nat → List Byte → List Host.Cell
  | m, _, [] => m
  | m, a, b :: bs => Memory.writeList (Memory.write m a b) (a + 1) bs

/-- The `n` bytes from `a` up. -/
def Memory.readList (m : List Host.Cell) : Nat → Nat → List Byte
  | _, 0 => []
  | a, n + 1 => Memory.read m a :: Memory.readList m (a + 1) n

/-- The little-endian halfword at `a` (R55). -/
def Memory.half (m : List Host.Cell) (a : Nat) : BitVec 16 := Memory.read m (a + 1) ++ Memory.read m a

/-- The little-endian word at `a` (R55). -/
def Memory.word (m : List Host.Cell) (a : Nat) : Word :=
  wordOfBytes (Memory.read m a) (Memory.read m (a + 1)) (Memory.read m (a + 2)) (Memory.read m (a + 3))

/-- The bytes of a halfword, lowest address first (R55). -/
def halfBytes (v : BitVec 16) : List Byte := [v.extractLsb' 0 8, v.extractLsb' 8 8]

/-- The bytes of a word, lowest address first (R55). -/
def wordBytes (v : Word) : List Byte := [byteOfWord v 0, byteOfWord v 1, byteOfWord v 2, byteOfWord v 3]

/-! ## Translation (R58, R59) -/

/-- The region that holds physical address `pa` (R58). -/
def regionOf (p : Params) (pa : Nat) : Option Region :=
  p.memoryMap.find? fun r => decide (r.base ≤ pa) && decide (pa < r.base + r.size)

/-- Segment `g` holds virtual address `va`. -/
def segmentHolds (g : AddressSegment) (va : Nat) : Bool := decide (g.first ≤ va) && decide (va < g.first + g.size)

/-- `TRANSLATE(va)` (R59). -/
def translate (p : Params) (va : Word) : Option Nat :=
  match p.segments.find? fun g => segmentHolds g va.toNat with
  | none => none
  | some g =>
    let pa := g.target + (va.toNat - g.first)
    if (regionOf p pa).isSome then some pa else none

/-- `translate` of a whole access of `n` bytes: `pa` where `pa + n - 1` is inside `pa`'s region (R61, R62). -/
def translateRange (p : Params) (va : Word) (n : Nat) : Option Nat :=
  match translate p va with
  | none => none
  | some pa =>
    match regionOf p pa with
    | none => none
    | some r => if pa + n ≤ r.base + r.size then some pa else none

/-- The physical address of a data access of `n` bytes, or its halt: misaligned before unmapped (R61, R62, R284). -/
def dataAddress (p : Params) (addr : Word) (n : Nat) : Except HaltReason Nat :=
  if addr.toNat % n ≠ 0 then .error (.addressMisaligned addr n)
  else match translateRange p addr n with
    | none => .error (.addressUnmapped addr n)
    | some pa => .ok pa

/-! ## The access primitives (R61, R62, R63) -/

/-- `MemRead(addr, 1)`. -/
def State.loadByte (s : State) (addr : Word) : Except HaltReason Byte :=
  match dataAddress s.par addr 1 with
  | .ok pa => .ok (Memory.read s.mem pa)
  | .error h => .error h

/-- `MemRead(addr, 2)`. -/
def State.loadHalf (s : State) (addr : Word) : Except HaltReason (BitVec 16) :=
  match dataAddress s.par addr 2 with
  | .ok pa => .ok (Memory.half s.mem pa)
  | .error h => .error h

/-- `MemRead(addr, 4)`. -/
def State.loadWord (s : State) (addr : Word) : Except HaltReason Word :=
  match dataAddress s.par addr 4 with
  | .ok pa => .ok (Memory.word s.mem pa)
  | .error h => .error h

/-- A texture cache entry one of whose source ranges meets `[pa, pa + n)` becomes dirty (R174, R389). -/
def TexEntry.touch (pa n : Nat) (e : TexEntry) : TexEntry :=
  if e.ranges.any fun r => decide (pa < r.1 + r.2) && decide (r.1 < pa + n) then { e with dirty := true } else e

/-- The texture cache after a write of `n` bytes at `pa` (R389). -/
def Gpu.touch (g : Gpu) (pa n : Nat) : Gpu := { g with texCache := g.texCache.map (TexEntry.touch pa n) }

/-- The bytes `bs` are written at physical address `pa` (R62, R174). -/
def State.storeBytes (s : State) (pa : Nat) (bs : List Byte) : State :=
  { s with mem := Memory.writeList s.mem pa bs, gpu := s.gpu.touch pa bs.length }

/-- `MemWrite(addr, n, v)` for the `n` bytes `bs` (R62): all of them, or none and a halt. -/
def State.storeChecked (s : State) (addr : Word) (bs : List Byte) : Except HaltReason State :=
  match dataAddress s.par addr bs.length with
  | .ok pa => .ok (s.storeBytes pa bs)
  | .error h => .error h

/-- `MemFetch(addr)` (R63): the word in current memory (R74), or the fetch halt. R63 asks only for the first byte to be mapped:
where the word runs past its region's end, the bytes beyond are read as memory holds them, 0 if nothing wrote them
(notes/assumptions/43). -/
def State.fetch (s : State) (addr : Word) : Except HaltReason Word :=
  if addr.extractLsb' 0 2 ≠ 0#2 then .error (.fetchMisaligned addr)
  else match translate s.par addr with
    | none => .error (.fetchUnmapped addr)
    | some pa => .ok (Memory.word s.mem pa)

/-! ## The event timer's operations (R297) -/

/-- `schedule(delay, action)`: the new event, and its handle (the value of `nextHandle` before: fresh handles count up from 0,
notes/assumptions/10). -/
def State.schedule (s : State) (delay : Nat) (action : EventAction) : State :=
  { s with kernel := { s.kernel with
      events := s.kernel.events ++ [{ handle := s.kernel.nextHandle, due := s.cycles + delay, action := action }]
      nextHandle := s.kernel.nextHandle + 1 } }

/-- `unschedule(h)`. -/
def State.unschedule (s : State) (h : Nat) : State :=
  { s with kernel := { s.kernel with events := s.kernel.events.filter fun e => e.handle != h } }

/-- `Reschedule()` is requested (R298). -/
def State.request (s : State) (asked : Bool) : State :=
  { s with kernel := { s.kernel with reschedRequested := s.kernel.reschedRequested || asked } }

/-- `unschedule` of the timer a wait may have. -/
def State.unscheduleTimer (s : State) (t : Option Nat) : State :=
  match t with
  | none => s
  | some h => s.unschedule h

end Sys2Proof.Machine
end

