-- ==== Sys2Proof/Machine/Operands.lean ====
section
/-! DEFINITION. The operand forms: immediates, shift amounts, effective addresses, branch and jump targets and links
(spec/30_encoding.md rule R94, spec/44_loadstore.md rule R173, spec/45_branch_jump.md rules R190 to R194). -/

namespace Sys2Proof.Machine

/-- `simm` (R94). -/
def simm (imm : BitVec 16) : Word := imm.signExtend 32

/-- `zimm` (R94). -/
def zimm (imm : BitVec 16) : Word := imm.setWidth 32

/-- `uimm` (R94, R149). -/
def uimm (imm : BitVec 16) : Word := imm ++ 0#16

/-- `boff` (R94). -/
def boff (offset : BitVec 16) : Word := simm offset <<< 2

/-- `EA` of a load or store (R173). -/
def State.ea (s : State) (base : Reg) (offset : BitVec 16) : Word := s.x base + simm offset

/-- The aligned word that LWL, LWR, SWL and SWR access (R64). -/
def alignDown4 (a : Word) : Word := a &&& ~~~3#32

/-- `EA[1:0]` (R177, R181, R184, R186). -/
def byteLane (a : Word) : Nat := (a.extractLsb' 0 2).toNat

/-- The shift amount `x[r][4:0]` of a variable shift (R115 to R118). -/
def State.shiftAmount (s : State) (r : Reg) : Nat := ((s.x r).extractLsb' 0 5).toNat

/-- The target of a conditional branch at `A = s.pc` (R191). -/
def State.branchTarget (s : State) (offset : BitVec 16) : Word := s.cpu.pc + 4#32 + boff offset

/-- The target of J and JAL at `A = s.pc` (R191). -/
def State.jumpTarget (s : State) (target : BitVec 26) : Word :=
  (s.cpu.pc + 4#32).extractLsb' 28 4 ++ target ++ 0#2

/-- The link address `A + 8` (R192). -/
def State.link (s : State) : Word := s.cpu.pc + 8#32

/-- `branch_to(t); ds <- true` after the advance (R190, R193). -/
def State.branchTo (s : State) (t : Word) : State :=
  { s with cpu := { s.cpu with nextPc := t, ds := true } }

/-- An ordinary branch not taken: `ds <- true` (R190). -/
def State.enterDelaySlot (s : State) : State := { s with cpu := { s.cpu with ds := true } }

/-- `skip_delay_slot` (R194). -/
def State.skipDelaySlot (s : State) : State :=
  { s with cpu := { s.cpu with pc := s.cpu.nextPc, nextPc := s.cpu.nextPc + 4#32 } }

/-- The end of an ordinary branch, after the advance (R190). -/
def State.branchIf (s : State) (c : Bool) (t : Word) : State :=
  if c then s.branchTo t else s.enterDelaySlot

/-- The end of a likely branch, after the advance (R190). -/
def State.branchLikelyIf (s : State) (c : Bool) (t : Word) : State :=
  if c then s.branchTo t else s.skipDelaySlot

/-- A control transfer in a delay slot halts before it reads an operand (R25, R190). -/
def State.controlTransfer (s : State) (t : State) : Out :=
  if s.cpu.ds then s.halt (.branchInDelaySlot s.cpu.pc) else .next t

end Sys2Proof.Machine
end

