-- ==== Sys2Proof/Machine/Flags.lean ====
section
/-! DEFINITION. Signed overflow (spec/41_alu_register.md rule R110) and the fields of FCR31 (spec/10_state.md rules R29 to
R32). The integer unit has no flags (R31). -/

namespace Sys2Proof.Machine

/-- An exact signed result lies outside 32 bits (R110). -/
def overflows (z : Int) : Bool := decide (z < -(2 ^ 31)) || decide (2 ^ 31 - 1 < z)

/-- The exact result of `s(a) + s(b)` does not fit (R110, R123, R142). -/
def addOverflows (a b : Word) : Bool := overflows (a.toInt + b.toInt)

/-- The exact result of `s(a) - s(b)` does not fit (R110, R125). -/
def subOverflows (a b : Word) : Bool := overflows (a.toInt - b.toInt)

/-- The result `v` of an instruction that checks overflow, written to `r` (R110). -/
def State.writeChecked (s : State) (ovf : Bool) (r : Reg) (v : Word) : Out :=
  if ovf && decide (s.par.overflowMode = .halt) then s.halt (.integerOverflow s.cpu.pc)
  else .next (s.advance.setX r v)

/-- `C`, bit 23 of FCR31 (R29, R31). -/
def fcrC (v : Word) : Bool := v.getLsbD 23

/-- `RM`, bits 1:0 of FCR31 (R29, R30). -/
def fcrRM (v : Word) : BitVec 2 := v.extractLsb' 0 2

/-- FCR31 with `C <- c` and nothing else changed (R241). -/
def fcrSetC (v : Word) (c : Bool) : Word := (v &&& ~~~0x00800000#32) ||| (if c then 0x00800000#32 else 0#32)

/-- What CFC1 reads from FCR31 (R32, R218): RM and C as stored, every other bit from the draw `d`. -/
def fcrRead (v d : Word) : Word := (v &&& 0x00800003#32) ||| (d &&& ~~~0x00800003#32)

end Sys2Proof.Machine
end

