-- ==== Sys2Proof/Machine/Fp.lean ====
section
/-! DEFINITION. Binary32 arithmetic (spec/00_scope.md rule R11, spec/46_fpu.md rules R215, R232, R233, R240, R241): exact
integer arithmetic, rounded once at the end. -/

namespace Sys2Proof.Machine

/-! ## Encodings -/

/-- The number a binary32 encoding stands for: a finite number is `(-1)^neg * m * 2^e`. -/
inductive Fp where
  | nan
  | inf (neg : Bool)
  | fin (neg : Bool) (m : Nat) (e : Int)
  deriving DecidableEq, Repr

/-- The exponent field. -/
def fpExponent (v : Word) : Nat := (v.extractLsb' 23 8).toNat

/-- The fraction field. -/
def fpFraction (v : Word) : Nat := (v.extractLsb' 0 23).toNat

/-- `F(v)` (R11). -/
def fpDecode (v : Word) : Fp :=
  if fpExponent v = 255 then (if fpFraction v = 0 then .inf v.msb else .nan)
  else if fpExponent v = 0 then .fin v.msb (fpFraction v) (-149)
  else .fin v.msb (fpFraction v + 2 ^ 23) ((fpExponent v : Int) - 150)

/-- A subnormal is zero of its sign when `FP_FTZ = flush` (R215). -/
def fpFlush (z : FtzMode) (v : Word) : Word := if z = .flush ∧ fpExponent v = 0 then v &&& 0x80000000#32 else v

/-- The sign bit of a result. -/
def fpSign (neg : Bool) : Word := if neg then 0x80000000#32 else 0#32

/-- Signed infinity. -/
def fpInf (neg : Bool) : Word := fpSign neg ||| 0x7F800000#32

/-- A NaN encoding from the draw `d` (R215): exponent all ones, sign and fraction of the draw, and fraction 1 where the draw
gives 0, so that every NaN encoding is possible. -/
def fpNan (d : Word) : Word :=
  if (d.extractLsb' 0 23) = 0#23 then d ||| 0x7F800001#32 else d ||| 0x7F800000#32

/-! ## Rounding -/

/-- `m / 2^k` to the nearest integer, ties to even; `sticky` says that the exact value is a little above `m`. -/
def shiftRoundEven (m k : Nat) (sticky : Bool) : Nat :=
  let q := m / 2 ^ k
  let r := 2 * (m % 2 ^ k)
  if 2 ^ k < r || (r == 2 ^ k && (sticky || q % 2 == 1)) then q + 1 else q

/-- The encoding of `(-1)^neg * m * 2^e` rounded to nearest, ties to even (R215); `sticky` as in `shiftRoundEven`, for an `m`
of more than 24 bits. Overflow gives infinity; a subnormal result is flushed when `FP_FTZ = flush`. -/
def fpRound (z : FtzMode) (neg : Bool) (m : Nat) (e : Int) (sticky : Bool) : Word :=
  if m = 0 then fpSign neg
  else
    let q : Int := max ((m.log2 : Int) + e - 23) (-149)
    let mant : Nat := if q ≤ e then m * 2 ^ (e - q).toNat else shiftRoundEven m (q - e).toNat sticky
    let bits : Nat := (q + 149).toNat * 2 ^ 23 + mant
    if 0x7F800000 ≤ bits then fpInf neg
    else if z = .flush ∧ bits < 2 ^ 23 then fpSign neg
    else fpSign neg ||| BitVec.ofNat 32 bits

/-! ## Arithmetic: `none` is a NaN draw (R215) -/

/-- A signed integer `n` times `2^e`, for an exact zero the sign `neg`. -/
def fpRoundInt (z : FtzMode) (neg : Bool) (n : Int) (e : Int) : Word :=
  if n = 0 then fpSign neg else fpRound z (decide (n < 0)) n.natAbs e false

/-- `(-1)^neg * m`. -/
def signedNat (neg : Bool) (m : Nat) : Int := if neg then -(m : Int) else m

/-- ADD.S (R224). -/
def fpAdd (z : FtzMode) (a b : Fp) : Option Word :=
  match a, b with
  | .nan, _ => none
  | _, .nan => none
  | .inf n, .inf n' => if n = n' then some (fpInf n) else none
  | .inf n, .fin _ _ _ => some (fpInf n)
  | .fin _ _ _, .inf n => some (fpInf n)
  | .fin n m e, .fin n' m' e' =>
    let e0 := min e e'
    some (fpRoundInt z (n && n') (signedNat n m * 2 ^ (e - e0).toNat + signedNat n' m' * 2 ^ (e' - e0).toNat) e0)

/-- The number with its sign changed. -/
def Fp.neg (a : Fp) : Fp :=
  match a with
  | .nan => .nan
  | .inf n => .inf (!n)
  | .fin n m e => .fin (!n) m e

/-- SUB.S (R225). -/
def fpSub (z : FtzMode) (a b : Fp) : Option Word := fpAdd z a b.neg

/-- MUL.S (R226). -/
def fpMul (z : FtzMode) (a b : Fp) : Option Word :=
  match a, b with
  | .nan, _ => none
  | _, .nan => none
  | .inf n, .inf n' => some (fpInf (n != n'))
  | .inf n, .fin n' m _ => if m = 0 then none else some (fpInf (n != n'))
  | .fin n m _, .inf n' => if m = 0 then none else some (fpInf (n != n'))
  | .fin n m e, .fin n' m' e' => some (fpRound z (n != n') (m * m') (e + e') false)

/-- DIV.S (R227). -/
def fpDiv (z : FtzMode) (a b : Fp) : Option Word :=
  match a, b with
  | .nan, _ => none
  | _, .nan => none
  | .inf _, .inf _ => none
  | .inf n, .fin n' _ _ => some (fpInf (n != n'))
  | .fin n _ _, .inf n' => some (fpSign (n != n'))
  | .fin n m e, .fin n' m' e' =>
    if m' = 0 then (if m = 0 then none else some (fpInf (n != n')))
    else some (fpRound z (n != n') (m * 2 ^ 64 / m') (e - e' - 64) (m * 2 ^ 64 % m' != 0))

/-- The greatest `r'` with `r' * r' ≤ n`, from `r` by its low `k` bits. -/
def isqrt (n : Nat) : Nat → Nat → Nat
  | 0, r => r
  | k + 1, r => if (r + 2 ^ k) * (r + 2 ^ k) ≤ n then isqrt n k (r + 2 ^ k) else isqrt n k r

/-- SQRT.S (R228). -/
def fpSqrt (z : FtzMode) (a : Fp) : Option Word :=
  match a with
  | .nan => none
  | .inf n => if n then none else some (fpInf false)
  | .fin n m e =>
    if m = 0 then some (fpSign n)
    else if n then none
    else
      let m' := (if e % 2 = 0 then m else 2 * m) * 2 ^ 64
      let e' := (if e % 2 = 0 then e else e - 1) - 64
      let r := isqrt m' 46 0
      some (fpRound z false r (e' / 2) (r * r != m'))

/-- The binary32 encoding of an integer, to nearest, ties to even (R234). -/
def fpOfInt (n : Int) : Word := fpRoundInt .gradual false n 0

/-! ## Conversion to a word (R232, R233) -/

/-- The rounding modes of R233. -/
inductive RoundMode where
  | rn
  | rz
  | rp
  | rm
  deriving DecidableEq, Repr

/-- The mode that FCR31.RM selects (R30, R233). -/
def roundModeOf (rm : BitVec 2) : RoundMode :=
  match rm with
  | 0#2 => .rn
  | 1#2 => .rz
  | 2#2 => .rp
  | _ => .rm

/-- `round_int(z, mode)` of a finite number (R233): the exact value is `n / 2^k`. -/
def roundInt (mode : RoundMode) (neg : Bool) (m : Nat) (e : Int) : Int :=
  let n := signedNat neg (m * 2 ^ e.toNat)
  let k := (-e).toNat
  match mode with
  | .rn => signedNat neg (shiftRoundEven (m * 2 ^ e.toNat) k false)
  | .rz => n.tdiv (2 ^ k)
  | .rp => -((-n) / 2 ^ k)
  | .rm => n / 2 ^ k

/-- `CVT_NAN_RESULT` (R232). -/
def cvtNanResult (p : Params) : Word :=
  match p.cvtNan with
  | .intMax => intMax
  | .intMin => intMin

/-- `CVT_RANGE_RESULT` of a number of sign `neg` (R232). -/
def cvtRangeResult (p : Params) (neg : Bool) : Word :=
  match p.cvtRange with
  | .saturate => if neg then intMin else intMax
  | .invalidDefault => intMax

/-- `to_word(F(v), mode)` (R232). -/
def toWord (p : Params) (v : Word) (mode : RoundMode) : Word :=
  match fpDecode v with
  | .nan => cvtNanResult p
  | .inf neg => if neg then intMin else intMax
  | .fin neg m e =>
    let n := roundInt mode neg m e
    if 2 ^ 31 - 1 < n then cvtRangeResult p false
    else if n < -(2 ^ 31) then cvtRangeResult p true
    else BitVec.ofInt 32 n

/-! ## Comparison (R240, R241) -/

/-- An integer that orders the numbers as R241 compares them: `value * 2^149`, and beyond every finite number for an
infinity. -/
def Fp.key (a : Fp) : Int :=
  match a with
  | .nan => 0
  | .inf neg => signedNat neg (2 ^ 300)
  | .fin neg m e => signedNat neg (m * 2 ^ (e + 149).toNat)

/-- `unordered` (R241). -/
def fpUnordered (a b : Word) : Bool := fpDecode a == .nan || fpDecode b == .nan

/-- `less` (R241). -/
def fpLess (a b : Word) : Bool := !fpUnordered a b && decide ((fpDecode a).key < (fpDecode b).key)

/-- `equal` (R241). -/
def fpEqual (a b : Word) : Bool := !fpUnordered a b && decide ((fpDecode a).key = (fpDecode b).key)

/-- The condition of R241 for the 4-bit `cond` field. -/
def fpCondition (cond : BitVec 4) (a b : Word) : Bool :=
  (cond.getLsbD 2 && fpLess a b) || (cond.getLsbD 1 && fpEqual a b) || (cond.getLsbD 0 && fpUnordered a b)

end Sys2Proof.Machine
end

