-- ==== Sys2Proof/Machine/GpuTexture.lean ====
section
/-! DEFINITION. The GPU's memory accesses, pixel and texel formats, CLUT lookup, DXT decoding and texture sampling
(spec/62_gpu_pipeline.md rules R356, R363, R365, R386 to R392, R398). Every texel is read from a snapshot of memory
(R389). -/

namespace Sys2Proof.Machine

/-! ## GpuRead and GpuWrite (R356, R398) -/

/-- One byte of `GpuRead`; an unmapped byte reads 0. -/
def geByte (p : Params) (m : List Host.Cell) (a : Word) : Byte :=
  match translate p a with
  | none => 0#8
  | some pa => Memory.read m pa

/-- `GpuRead(a, 2)`. -/
def geHalf (p : Params) (m : List Host.Cell) (a : Word) : BitVec 16 := geByte p m (a + 1#32) ++ geByte p m a

/-- `GpuRead(a, 4)`. -/
def geWord (p : Params) (m : List Host.Cell) (a : Word) : Word :=
  wordOfBytes (geByte p m a) (geByte p m (a + 1#32)) (geByte p m (a + 2#32)) (geByte p m (a + 3#32))

/-- One byte of `GpuWrite`; an unmapped write is dropped. -/
def State.geWriteByte (s : State) (a : Word) (b : Byte) : State :=
  match translate s.par a with
  | none => s
  | some pa => s.storeBytes pa [b]

/-- `GpuWrite` of the bytes `bs`. -/
def State.geWrite (s : State) (a : Word) : List Byte → State
  | [] => s
  | b :: bs => (s.geWriteByte a b).geWrite (a + 1#32) bs

/-! ## Registers -/

/-- `reg[n]` (R352). -/
def Gpu.r (g : Gpu) (n : Fin 256) : BitVec 24 := g.reg[n]

/-- A field `reg[n][lo + len - 1 : lo]`, as a number. -/
def Gpu.field (g : Gpu) (n : Fin 256) (lo len : Nat) : Nat := ((g.r n).extractLsb' lo len).toNat

/-- A flag `reg[n][i]`. -/
def Gpu.flag (g : Gpu) (n : Fin 256) (i : Nat) : Bool := (g.r n).getLsbD i

/-- `f24(p)` (R363). -/
def f24 (p : BitVec 24) : Word := p ++ 0#8

/-! ## Colours (R387) -/

/-- A colour of four 8-bit channels. -/
structure Rgba where
  r : Nat
  g : Nat
  b : Nat
  a : Nat
  deriving DecidableEq, Repr

/-- Transparent black. -/
def Rgba.zero : Rgba := { r := 0, g := 0, b := 0, a := 0 }

/-- `e5` (R387). -/
def e5 (n : Nat) : Nat := n * 8 + n / 4

/-- `e6` (R387). -/
def e6 (n : Nat) : Nat := n * 4 + n / 16

/-- `e4` (R387). -/
def e4 (n : Nat) : Nat := n * 17

/-- 5650 (R387). -/
def decode5650 (v : BitVec 16) : Rgba where
  r := e5 (v.extractLsb' 0 5).toNat
  g := e6 (v.extractLsb' 5 6).toNat
  b := e5 (v.extractLsb' 11 5).toNat
  a := 255

/-- 5551 (R387). -/
def decode5551 (v : BitVec 16) : Rgba where
  r := e5 (v.extractLsb' 0 5).toNat
  g := e5 (v.extractLsb' 5 5).toNat
  b := e5 (v.extractLsb' 10 5).toNat
  a := if v.getLsbD 15 then 255 else 0

/-- 4444 (R387). -/
def decode4444 (v : BitVec 16) : Rgba where
  r := e4 (v.extractLsb' 0 4).toNat
  g := e4 (v.extractLsb' 4 4).toNat
  b := e4 (v.extractLsb' 8 4).toNat
  a := e4 (v.extractLsb' 12 4).toNat

/-- 8888 (R387). -/
def decode8888 (v : Word) : Rgba where
  r := (v.extractLsb' 0 8).toNat
  g := (v.extractLsb' 8 8).toNat
  b := (v.extractLsb' 16 8).toNat
  a := (v.extractLsb' 24 8).toNat

/-- A packed colour in format 0 to 3, from the low bits of `v`. -/
def decodeColour (fmt : Nat) (v : Word) : Rgba :=
  if fmt = 0 then decode5650 (v.setWidth 16)
  else if fmt = 1 then decode5551 (v.setWidth 16)
  else if fmt = 2 then decode4444 (v.setWidth 16)
  else decode8888 v

/-! ## Indexed formats (R388) -/

/-- Byte `i` of the CLUT. -/
def Gpu.clutByte (g : Gpu) (i : Nat) : Byte := if h : i < 1024 then g.clut[i] else 0#8

/-- The colour of the raw index `raw` through the CLUT (R388). -/
def Gpu.clutColour (g : Gpu) (raw : Nat) : Rgba :=
  let idx := ((raw >>> g.field 0xC5 2 5) &&& g.field 0xC5 8 8) ||| (g.field 0xC5 16 5 <<< 4)
  let fmt := g.field 0xC5 0 2
  if fmt = 3 then
    let i := 4 * (idx % 256)
    decode8888 (wordOfBytes (g.clutByte i) (g.clutByte (i + 1)) (g.clutByte (i + 2)) (g.clutByte (i + 3)))
  else
    let i := 2 * (idx % 512)
    decodeColour fmt ((g.clutByte (i + 1) ++ g.clutByte i).setWidth 32)

/-! ## DXT blocks (R390 to R392) -/

/-- The palette of a block, channel by channel: `p2` where `color1 > color2` (R390). -/
def dxtThird (p0 p1 : Nat) : Nat := (2 * p0 + p1 + 1) / 3

/-- A palette entry from a function of the two base channels, with alpha 255. -/
def Rgba.mix (f : Nat → Nat → Nat) (p q : Rgba) : Rgba := { r := f p.r q.r, g := f p.g q.g, b := f p.b q.b, a := 255 }

/-- Palette entry `i` of a block (R390). -/
def dxtPalette (c1 c2 : BitVec 16) (i : Nat) : Rgba :=
  let p0 := decode5650 c1
  let p1 := decode5650 c2
  if i = 0 then p0
  else if i = 1 then p1
  else if c2.toNat < c1.toNat then (if i = 2 then Rgba.mix dxtThird p0 p1 else Rgba.mix dxtThird p1 p0)
  else if i = 2 then Rgba.mix (fun a b => (a + b) / 2) p0 p1
  else Rgba.zero

/-- Entry `k` of the alpha ramp of a DXT5 block (R392). -/
def dxt5Alpha (a0 a1 k : Nat) : Nat :=
  if k = 0 then a0
  else if k = 1 then a1
  else if a1 < a0 then ((8 - k) * a0 + (k - 1) * a1) / 7
  else if k = 6 then 0
  else if k = 7 then 255
  else ((6 - k) * a0 + (k - 1) * a1) / 5

/-- The address of the block that holds texel (x, y), for blocks of `size` bytes (R390). -/
def Gpu.dxtBlock (g : Gpu) (base : Word) (size x y : Nat) : Word :=
  base + BitVec.ofNat 32 (size * (y / 4 * (g.field 0xA8 0 11 / 4) + x / 4))

/-- The colour part of the block at `blk` (R390). -/
def dxtColour (p : Params) (m : List Host.Cell) (blk : Word) (x y : Nat) : Rgba :=
  let row := geByte p m (blk + BitVec.ofNat 32 (y % 4))
  dxtPalette (geHalf p m (blk + 4#32)) (geHalf p m (blk + 6#32)) ((row.extractLsb' (2 * (x % 4)) 2).toNat)

/-- A DXT1, DXT3 or DXT5 texel (R390, R391, R392). -/
def Gpu.dxtTexel (g : Gpu) (p : Params) (m : List Host.Cell) (base : Word) (fmt x y : Nat) : Rgba :=
  if fmt = 8 then dxtColour p m (g.dxtBlock base 8 x y) x y
  else
    let blk := g.dxtBlock base 16 x y
    let c := dxtColour p m blk x y
    if fmt = 9 then
      let row := geHalf p m (blk + 8#32 + BitVec.ofNat 32 (2 * (y % 4)))
      { c with a := e4 (row.extractLsb' (4 * (x % 4)) 4).toNat }
    else
      let bits := (geHalf p m (blk + 12#32)).toNat * 2 ^ 32 + (geWord p m (blk + 8#32)).toNat
      let k := bits / 2 ^ (3 * (4 * (y % 4) + x % 4)) % 8
      { c with a := dxt5Alpha (geByte p m (blk + 14#32)).toNat (geByte p m (blk + 15#32)).toNat k }

/-! ## Texel fetch (R365, R386, R387) -/

/-- `tex_addr[0]` (R365). -/
def Gpu.texAddr (g : Gpu) : Word := 0#4 ++ (g.r 0xA8).extractLsb' 16 4 ++ g.r 0xA0

/-- Bits per texel of a format; 0 for an unknown one (R387, R398). -/
def texelBits (p : Params) (fmt : Nat) : Nat :=
  if fmt = 0 ∨ fmt = 1 ∨ fmt = 2 then 16
  else if fmt = 3 then 32
  else if fmt = 4 then 4
  else if fmt = 5 then 8
  else if fmt = 6 then (if p.clut16Supported then 16 else 0)
  else if fmt = 7 then 32
  else if fmt = 8 then 4
  else if fmt = 9 ∨ fmt = 10 then 8
  else 0

/-- The bit offset of texel (x, y) of a format that is not DXT (R387). -/
def Gpu.texelOffset (g : Gpu) (p : Params) (bits x y : Nat) : Nat :=
  let pitch := g.field 0xA8 0 11
  if p.texSwizzle = .decoded ∧ g.flag 0xC2 0 then Config.swizzledOffset bits pitch x y else bits * (y * pitch + x)

/-- The raw texel of `bits` bits at a bit offset from `base` (R387). With an odd pitch, in an odd row, the offset of a 4-bit texel at
an even x is a high nibble, where R387 also says low: the offset decides (notes/assumptions/45). -/
def rawTexel (p : Params) (m : List Host.Cell) (base : Word) (bits off : Nat) : Word :=
  let a := base + BitVec.ofNat 32 (off / 8)
  if bits = 4 then (((geByte p m a).extractLsb' (off % 8) 4)).setWidth 32
  else if bits = 8 then (geByte p m a).setWidth 32
  else if bits = 16 then (geHalf p m a).setWidth 32
  else geWord p m a

/-- The texel at (x, y), already addressed (R387, R388, R390, R398). Under `TEX_SWIZZLE = decoded` with TEXMODE bit 0 set, DXT blocks are
still read in the linear order of R390: the model's choice, as the spec gives no swizzled layout (notes/assumptions/17). -/
def Gpu.texel (g : Gpu) (p : Params) (m : List Host.Cell) (x y : Nat) : Rgba :=
  let fmt := g.field 0xC3 0 4
  let bits := texelBits p fmt
  if bits = 0 then Rgba.zero
  else if 8 ≤ fmt then g.dxtTexel p m g.texAddr fmt x y
  else
    let raw := rawTexel p m g.texAddr bits (g.texelOffset p bits x y)
    if fmt ≤ 3 then decodeColour fmt raw else g.clutColour raw.toNat

/-! ## Sampling (R386) -/

/-- `W` and `H` of a TEXSIZE field (R386). -/
def texDim (n : Nat) : Nat := 2 ^ min n 9

/-- `W` (R386). -/
def Gpu.texW (g : Gpu) : Nat := texDim (g.field 0xB8 0 4)

/-- `H` (R386). -/
def Gpu.texH (g : Gpu) : Nat := texDim (g.field 0xB8 8 4)

/-- A texel coordinate addressed by wrap or clamp (R386). -/
def addressTexel (clamp : Bool) (i : Int) (n : Nat) : Nat :=
  if clamp then (min (max i 0) ((n : Int) - 1)).toNat else (i % (n : Int)).toNat

/-- The texel at an unaddressed coordinate. -/
def Gpu.texelAt (g : Gpu) (p : Params) (m : List Host.Cell) (i j : Int) : Rgba :=
  g.texel p m (addressTexel (g.flag 0xC7 0) i g.texW) (addressTexel (g.flag 0xC7 8) j g.texH)

/-- The bilinear weighting of one channel (R386). -/
def bilinear (c00 c10 c01 c11 fx fy : Nat) : Nat :=
  (c00 * (256 - fx) * (256 - fy) + c10 * fx * (256 - fy) + c01 * (256 - fx) * fy + c11 * fx * fy) / 2 ^ 16

/-- The texture colour at `S`, `T` in 1/256 texel (R386). -/
def Gpu.sample (g : Gpu) (p : Params) (m : List Host.Cell) (S T : Int) : Rgba :=
  if g.flag 0xC6 8 then
    let S' := S - 128
    let T' := T - 128
    let x0 := S'.fdiv 256
    let y0 := T'.fdiv 256
    let fx := (S' % 256).toNat
    let fy := (T' % 256).toNat
    let c00 := g.texelAt p m x0 y0
    let c10 := g.texelAt p m (x0 + 1) y0
    let c01 := g.texelAt p m x0 (y0 + 1)
    let c11 := g.texelAt p m (x0 + 1) (y0 + 1)
    { r := bilinear c00.r c10.r c01.r c11.r fx fy
      g := bilinear c00.g c10.g c01.g c11.g fx fy
      b := bilinear c00.b c10.b c01.b c11.b fx fy
      a := bilinear c00.a c10.a c01.a c11.a fx fy }
  else g.texelAt p m (S.fdiv 256) (T.fdiv 256)

/-! ## The texture cache (R389; notes/assumptions/14) -/

/-- How many bytes from the texture's address on a decode of every texel reads (R387, R390): up to the last texel of the last row,
or the last block of the last row of blocks; nothing for an unknown format (R398), and any byte at all where the layout is
`TEX_SWIZZLE = decoded`, which the model leaves free (notes/assumptions/17). -/
def Gpu.texBytes (g : Gpu) (p : Params) : Nat :=
  let fmt := g.field 0xC3 0 4
  let pitch := g.field 0xA8 0 11
  let bits := texelBits p fmt
  if bits = 0 then 0
  else if 8 ≤ fmt then (if fmt = 8 then 8 else 16) * ((g.texH - 1) / 4 * (pitch / 4) + (g.texW - 1) / 4 + 1)
  else if p.texSwizzle = .decoded ∧ g.flag 0xC2 0 then 2 ^ 32
  else (bits * ((g.texH - 1) * pitch + g.texW) + 7) / 8

/-- The pieces of physical memory that `TRANSLATE` gives the virtual addresses `lo` to `hi - 1`, as (first byte, size). -/
def physicalPieces (segments : List AddressSegment) (lo hi : Nat) : List (Nat × Nat) :=
  segments.filterMap fun g =>
    let l := max lo g.first
    let h := min hi (g.first + g.size)
    if l < h then some (g.target + (l - g.first), h - l) else none

/-- The pieces of physical memory behind `n` bytes from virtual address `a` on, which may wrap past 2^32. -/
def physicalRanges (p : Params) (a : Word) (n : Nat) : List (Nat × Nat) :=
  physicalPieces p.segments a.toNat (min (a.toNat + n) (2 ^ 32)) ++ physicalPieces p.segments 0 (a.toNat + n - 2 ^ 32)

/-- The entry that a PRIM decodes for slot 0. -/
def Gpu.texEntry (g : Gpu) (p : Params) : TexEntry where
  address := g.texAddr
  format := (g.r 0xC3).extractLsb' 0 4
  width := g.texW
  height := g.texH
  pitch := g.field 0xA8 0 11
  clutFormat := g.r 0xC5
  ranges := physicalRanges p g.texAddr (g.texBytes p)
  dirty := false

/-- The cache after a PRIM that samples slot 0: an entry is keyed by its source address. -/
def Gpu.cacheTexture (g : Gpu) (p : Params) : Gpu :=
  if g.flag 0x1E 0 then { g with texCache := g.texEntry p :: g.texCache.filter fun e => e.address != g.texAddr } else g

/-- LOADCLUT invalidates the decodes that used the CLUT (R366, R389). -/
def TexEntry.clutChanged (e : TexEntry) : TexEntry :=
  if 4 ≤ e.format.toNat ∧ e.format.toNat ≤ 7 then { e with dirty := true } else e

end Sys2Proof.Machine
end

