-- ==== Sys2Proof/Machine/GpuPixel.lean ====
section
/-! DEFINITION. The per-pixel pipeline (spec/62_gpu_pipeline.md rules R382 to R385 and R393 to R397). -/

namespace Sys2Proof.Machine

/-- A fragment (R375): the pixel, its depth, its colour, its texel coordinates in 1/256 texel, and a number of its own for
free values. -/
structure Fragment where
  px : Nat
  py : Nat
  z : Int
  c : Rgba
  S : Int
  T : Int
  place : Nat
  deriving DecidableEq, Repr

/-- What a PRIM fixes at its start: through mode, and the memory its textures are read from (R389). -/
structure DrawContext where
  through : Bool
  snapshot : List Host.Cell
  deriving DecidableEq, Repr

/-- `cmp(func, a, b)` (R383). -/
def compare (func : Nat) (a b : Int) : Bool :=
  if func = 0 then false
  else if func = 1 then true
  else if func = 2 then decide (a = b)
  else if func = 3 then decide (a ≠ b)
  else if func = 4 then decide (a < b)
  else if func = 5 then decide (a ≤ b)
  else if func = 6 then decide (b < a)
  else decide (b ≤ a)

/-! ## Stages 1 and 2 (R384) -/

/-- Stage 1: the pixel is inside the scissor rectangle. -/
def Gpu.inScissor (g : Gpu) (px py : Nat) : Bool :=
  decide (g.field 0xD4 0 10 ≤ px) && decide (px ≤ g.field 0xD5 0 10) && decide (g.field 0xD4 10 10 ≤ py) &&
    decide (py ≤ g.field 0xD5 10 10)

/-- Stage 2: the depth after the range clip, `none` where it discards. -/
def Gpu.depthRange (g : Gpu) (through : Bool) (z : Int) : Option Int :=
  if through then some (min (max z 0) 65535)
  else if (g.field 0xD6 0 16 : Int) ≤ z ∧ z ≤ (g.field 0xD7 0 16 : Int) then some z else none

/-! ## Stage 3 (R385) -/

/-- The address of a depth value (R365, R396). -/
def Gpu.depthAddr (g : Gpu) (px py : Nat) : Word :=
  0x04000000#32 + (((g.r 0x9E).setWidth 32) &&& 0x1FFFF0#32) + BitVec.ofNat 32 (2 * (py * g.field 0x9F 0 11 + px))

/-- Stage 3 passes. -/
def Gpu.depthTest (g : Gpu) (p : Params) (m : List Host.Cell) (px py : Nat) (z : Int) : Bool :=
  !g.flag 0x23 0 || compare (g.field 0xDE 0 3) z ((geHalf p m (g.depthAddr px py)).toNat : Int)

/-! ## Stage 5 (R393) -/

/-- `mul(a, b)` (R393). -/
def mul255 (a b : Nat) : Nat := a * b / 255

/-- The colour of the texture function, one channel: texel, fragment, environment, texel alpha (R393). -/
def texFuncColour (func : Nat) (rgba : Bool) (ct cf ce at_ : Nat) : Nat :=
  if func = 1 then (if rgba then (ct * at_ + cf * (255 - at_)) / 255 else ct)
  else if func = 2 then (cf * (255 - ct) + ce * ct) / 255
  else if func = 3 then ct
  else if func = 4 then min 255 (ct + cf)
  else mul255 ct cf

/-- The alpha of the texture function (R393). -/
def texFuncAlpha (func : Nat) (rgba : Bool) (at_ af : Nat) : Nat :=
  if func = 1 then af
  else if func = 3 then (if rgba then at_ else af)
  else if rgba then mul255 at_ af else af

/-- Fragment doubling (R393). -/
def doubled (d : Bool) (c : Nat) : Nat := if d then min 255 (2 * c) else c

/-- Stages 4 and 5: the fragment's colour after texturing (R386, R393). -/
def Gpu.textured (g : Gpu) (p : Params) (m : List Host.Cell) (f : Fragment) : Rgba :=
  if g.flag 0x1E 0 then
    let t := g.sample p m f.S f.T
    let func := g.field 0xC9 0 3
    let rgba := g.flag 0xC9 8
    let d := g.flag 0xC9 16
    { r := doubled d (texFuncColour func rgba t.r f.c.r (g.field 0xCA 0 8) t.a)
      g := doubled d (texFuncColour func rgba t.g f.c.g (g.field 0xCA 8 8) t.a)
      b := doubled d (texFuncColour func rgba t.b f.c.b (g.field 0xCA 16 8) t.a)
      a := texFuncAlpha func rgba t.a f.c.a }
  else f.c

/-! ## Stage 6 (R394) -/

/-- Stage 6 passes. -/
def Gpu.alphaTest (g : Gpu) (a : Nat) : Bool :=
  !g.flag 0x22 0 ||
    compare (g.field 0xDB 0 3) ((a &&& g.field 0xDB 16 8 : Nat) : Int)
      ((g.field 0xDB 8 8 &&& g.field 0xDB 16 8 : Nat) : Int)

/-! ## Stage 7 (R395) -/

/-- A blend factor: the code, the other colour's channel, the two alphas and the fixed channel (R395). -/
def blendFactor (code other as_ ad fix : Nat) : Nat :=
  if code = 0 then other
  else if code = 1 then 255 - other
  else if code = 2 then as_
  else if code = 3 then 255 - as_
  else if code = 4 then ad
  else if code = 5 then 255 - ad
  else if code = 6 then 2 * as_
  else if code = 7 then 2 * (255 - as_)
  else if code = 8 then 2 * ad
  else if code = 9 then 2 * (255 - ad)
  else fix

/-- A result clamped to 0..255 (R395). -/
def clamp255 (z : Int) : Nat := (min (max z 0) 255).toNat

/-- A blend equation, one channel (R395). -/
def blendEquation (eq cs cd fs fd : Nat) : Nat :=
  let a : Int := cs * fs
  let b : Int := cd * fd
  if eq = 1 then clamp255 ((a - b).fdiv 255)
  else if eq = 2 then clamp255 ((b - a).fdiv 255)
  else if eq = 3 then min cs cd
  else if eq = 4 then max cs cd
  else if eq = 5 then (max cs cd) - (min cs cd)
  else clamp255 ((a + b).fdiv 255)

/-- One channel of stage 7. -/
def Gpu.blendChannel (g : Gpu) (cs cd as_ ad fixA fixB : Nat) : Nat :=
  blendEquation (g.field 0xDF 8 3) cs cd (blendFactor (g.field 0xDF 0 4) cd as_ ad fixA)
    (blendFactor (g.field 0xDF 4 4) cs as_ ad fixB)

/-- Stage 7 (R395): source `c`, destination `d`. -/
def Gpu.blended (g : Gpu) (c d : Rgba) : Rgba :=
  if g.flag 0x21 0 then
    { r := g.blendChannel c.r d.r c.a d.a (g.field 0xE0 0 8) (g.field 0xE1 0 8)
      g := g.blendChannel c.g d.g c.a d.a (g.field 0xE0 8 8) (g.field 0xE1 8 8)
      b := g.blendChannel c.b d.b c.a d.a (g.field 0xE0 16 8) (g.field 0xE1 16 8)
      a := c.a }
  else c

/-! ## Stage 8 (R396) and clear mode (R397) -/

/-- `fb_fmt` (R396). -/
def Gpu.fbFmt (g : Gpu) : Nat := g.field 0xD2 0 2

/-- The address of a framebuffer pixel (R365, R396). -/
def Gpu.pixelAddr (g : Gpu) (px py : Nat) : Word :=
  0x04000000#32 + (((g.r 0x9C).setWidth 32) &&& 0x1FFFF0#32) +
    BitVec.ofNat 32 ((if g.fbFmt = 3 then 4 else 2) * (py * g.field 0x9D 0 11 + px))

/-- The framebuffer pixel as it is (R395, R396). -/
def Gpu.readPixel (g : Gpu) (p : Params) (m : List Host.Cell) (px py : Nat) : Word :=
  if g.fbFmt = 3 then geWord p m (g.pixelAddr px py) else (geHalf p m (g.pixelAddr px py)).setWidth 32

/-- The destination colour of stage 7; a 5650 destination has alpha 0 (R395). -/
def Gpu.destColour (g : Gpu) (v : Word) : Rgba :=
  if g.fbFmt = 0 then { decodeColour 0 v with a := 0 } else decodeColour g.fbFmt v

/-- The R, G and B bits of a pixel (R396). -/
def colourMask (fmt : Nat) : Word :=
  if fmt = 0 then 0x0000FFFF#32 else if fmt = 1 then 0x00007FFF#32 else if fmt = 2 then 0x00000FFF#32 else 0x00FFFFFF#32

/-- The alpha bits of a pixel (R387). -/
def alphaMask (fmt : Nat) : Word :=
  if fmt = 0 then 0#32 else if fmt = 1 then 0x00008000#32 else if fmt = 2 then 0x0000F000#32 else 0xFF000000#32

/-- A colour encoded by truncation (R396); the alpha of 5551 is its top bit (notes/assumptions/28). -/
def encodeColour (fmt : Nat) (c : Rgba) : Word :=
  if fmt = 0 then BitVec.ofNat 32 (c.r / 8 + c.g / 4 * 2 ^ 5 + c.b / 8 * 2 ^ 11)
  else if fmt = 1 then BitVec.ofNat 32 (c.r / 8 + c.g / 8 * 2 ^ 5 + c.b / 8 * 2 ^ 10 + c.a / 128 * 2 ^ 15)
  else if fmt = 2 then BitVec.ofNat 32 (c.r / 16 + c.g / 16 * 2 ^ 4 + c.b / 16 * 2 ^ 8 + c.a / 16 * 2 ^ 12)
  else BitVec.ofNat 32 (c.r + c.g * 2 ^ 8 + c.b * 2 ^ 16 + c.a * 2 ^ 24)

/-- The bits of `mask` of a pixel become those of `v`. -/
def mergeBits (old v mask : Word) : Word := (old &&& ~~~mask) ||| (v &&& mask)

/-- A framebuffer pixel is written. -/
def State.writePixel (s : State) (px py : Nat) (v : Word) : State :=
  s.geWrite (s.gpu.pixelAddr px py) (if s.gpu.fbFmt = 3 then wordBytes v else halfBytes (v.setWidth 16))

/-- A depth value is written. -/
def State.writeDepth (s : State) (px py : Nat) (z : Int) : State :=
  s.geWrite (s.gpu.depthAddr px py) (halfBytes (BitVec.ofInt 16 z))

/-- Stage 8 (R396): the colour with the destination's alpha kept, and the depth when the test is enabled and writes are not
disabled. -/
def State.writeFragment (s : State) (px py : Nat) (z : Int) (c : Rgba) : State :=
  let g := s.gpu
  let fmt := g.fbFmt
  let old := g.readPixel s.par s.mem px py
  let s1 := s.writePixel px py (mergeBits old (encodeColour fmt c) (colourMask fmt))
  if g.flag 0x23 0 && !g.flag 0xE7 0 then s1.writeDepth px py z else s1

/-- The bits of a pixel that clear mode writes (R397). -/
def Gpu.clearMask (g : Gpu) : Word :=
  (if g.flag 0xD3 8 then colourMask g.fbFmt else 0#32) ||| (if g.flag 0xD3 9 then alphaMask g.fbFmt else 0#32)

/-- The colour and alpha that clear mode writes (R397). -/
def State.clearColour (s : State) (f : Fragment) : State :=
  if s.gpu.clearMask = 0#32 then s
  else s.writePixel f.px f.py
    (mergeBits (s.gpu.readPixel s.par s.mem f.px f.py) (encodeColour s.gpu.fbFmt f.c) s.gpu.clearMask)

/-- The depth that clear mode writes: in through mode clamped to 16 bits (R384, D64 of spec/92_eei_decisions.md); else a depth that
does not fit in 16 bits is a free value (notes/assumptions/27). -/
def clearDepth (seed : Nat) (through : Bool) (f : Fragment) : Int :=
  if through then min (max f.z 0) 65535
  else if 0 ≤ f.z ∧ f.z ≤ 65535 then f.z else Config.geCoord seed f.place 5

/-- A fragment in clear mode (R397), after stage 1. -/
def State.clearFragment (s : State) (through : Bool) (f : Fragment) : State :=
  if s.gpu.flag 0xD3 10 then (s.clearColour f).writeDepth f.px f.py (clearDepth s.draws through f) else s.clearColour f

/-- The pipeline of one fragment, in the order of R382. -/
def State.shade (s : State) (d : DrawContext) (f : Fragment) : State :=
  let g := s.gpu
  if !g.inScissor f.px f.py then s
  else if g.flag 0xD3 0 then s.clearFragment d.through f
  else match g.depthRange d.through f.z with
    | none => s
    | some z =>
      if !g.depthTest s.par s.mem f.px f.py z then s
      else
        let c := g.textured s.par d.snapshot f
        if !g.alphaTest c.a then s
        else
          let dst := g.destColour (g.readPixel s.par s.mem f.px f.py)
          s.writeFragment f.px f.py z (g.blended c dst)

end Sys2Proof.Machine
end

