-- ==== Sys2Proof/Machine/GpuVertex.lean ====
section
/-! DEFINITION. The vertex format, vertex fetch and decoding, and the transform (spec/62_gpu_pipeline.md rules R369 to
R374). Binary32 arithmetic is to nearest, ties to even, in the order written (R371). -/

namespace Sys2Proof.Machine

/-! ## Binary32 arithmetic of the GPU (R371) -/

/-- The result of an operation; the bits of a NaN are not observable here (notes/assumptions/16). -/
def geResult (r : Option Word) : Word := r.getD 0x7FC00000#32

def geAdd (a b : Word) : Word := geResult (fpAdd .gradual (fpDecode a) (fpDecode b))
def geSub (a b : Word) : Word := geResult (fpSub .gradual (fpDecode a) (fpDecode b))
def geMul (a b : Word) : Word := geResult (fpMul .gradual (fpDecode a) (fpDecode b))
def geDiv (a b : Word) : Word := geResult (fpDiv .gradual (fpDecode a) (fpDecode b))

/-- The binary32 value of `n / 2^k`. -/
def geOfInt (n : Int) (k : Nat) : Word := fpRoundInt .gradual false n (-(k : Int))

/-- `floor(k * v)`; `none` where `v` is not finite. The product is exact, and does not overflow (notes/assumptions/16). -/
def floorScaled (v : Word) (k : Nat) : Option Int :=
  match fpDecode v with
  | .fin neg m e => some (roundInt .rm neg (m * k) e)
  | _ => none

/-! ## The vertex format (R369, R370) -/

/-- The VERTEXTYPE fields (R369), and the types that their colour and index codes name. -/
structure VertexFormat where
  types : VertexTypes
  tc : Nat
  col : Nat
  nrm : Nat
  pos : Nat
  wt : Nat
  idx : Nat
  wcount : Nat
  mcount : Nat
  through : Bool
  deriving DecidableEq, Repr

/-- The format in `reg[0x12]` (R369). -/
def Gpu.vertexFormat (g : Gpu) (types : VertexTypes) : VertexFormat where
  types := types
  tc := g.field 0x12 0 2
  col := g.field 0x12 2 3
  nrm := g.field 0x12 5 2
  pos := g.field 0x12 7 2
  wt := g.field 0x12 9 2
  idx := g.field 0x12 11 2
  wcount := g.field 0x12 14 3 + 1
  mcount := g.field 0x12 18 3 + 1
  through := g.flag 0x12 23

/-- The colour or the index code is reserved (R369). Where the types are literal, the four codes of the index name the four types, and
a colour code above 3 names none (notes/assumptions/15). -/
def VertexFormat.reserved (f : VertexFormat) : Bool :=
  match f.types with
  | .packed => f.col == 1 || f.col == 2 || f.col == 3 || f.idx == 3
  | .literal _ => decide (3 < f.col)

/-- The PRIM is skipped and its addresses do not advance (R369). -/
def VertexFormat.refused (f : VertexFormat) : Bool := f.pos == 0 || f.reserved || decide (1 < f.mcount)

/-- The bytes of one element of a size code: 1, 2, 4, or 0 for none (R369). -/
def elementSize (code : Nat) : Nat := if code = 0 then 0 else if code = 1 then 1 else if code = 2 then 2 else 4

/-- The bytes of a packed colour (R369). -/
def colourSize (code : Nat) : Nat := if code = 0 then 0 else if code = 7 then 4 else 2

/-- The bytes of one element of the colour: the packed value, or an element of its literal type (R370). -/
def VertexFormat.colElement (f : VertexFormat) : Nat :=
  match f.types with
  | .packed => colourSize f.col
  | .literal _ => elementSize f.col

/-- How many elements the colour has. -/
def VertexFormat.colCount (f : VertexFormat) : Nat :=
  match f.types with
  | .packed => 1
  | .literal n => n

/-- The next offset that is a multiple of an element size (R370). -/
def alignTo (off size : Nat) : Nat := if size = 0 then off else (off + size - 1) / size * size

/-- Offset of the texture coordinate. -/
def VertexFormat.tcOffset (f : VertexFormat) : Nat := alignTo (f.wcount * elementSize f.wt) (elementSize f.tc)

/-- Offset of the colour. -/
def VertexFormat.colOffset (f : VertexFormat) : Nat := alignTo (f.tcOffset + 2 * elementSize f.tc) f.colElement

/-- Offset of the normal. -/
def VertexFormat.nrmOffset (f : VertexFormat) : Nat :=
  alignTo (f.colOffset + f.colCount * f.colElement) (elementSize f.nrm)

/-- Offset of the position. -/
def VertexFormat.posOffset (f : VertexFormat) : Nat := alignTo (f.nrmOffset + 3 * elementSize f.nrm) (elementSize f.pos)

/-- The vertex size (R370). -/
def VertexFormat.stride (f : VertexFormat) : Nat :=
  alignTo (f.posOffset + 3 * elementSize f.pos)
    (max (max (elementSize f.wt) (elementSize f.tc)) (max f.colElement (max (elementSize f.nrm) (elementSize f.pos))))

/-- The size of one index: 1, 2, or 0 without an index (R369, R372); 4 for a float index, which only the literal types have. -/
def VertexFormat.indexSize (f : VertexFormat) : Nat := elementSize f.idx

/-! ## Fetch (R372) -/

/-- The element number `j` of vertex `k` (R372). -/
def Gpu.vertexIndex (g : Gpu) (p : Params) (m : List Host.Cell) (f : VertexFormat) (k : Nat) : Nat :=
  let a := g.iaddr + BitVec.ofNat 32 (k * f.indexSize)
  if f.indexSize = 0 then k
  else if f.indexSize = 1 then (geByte p m a).toNat
  else if f.indexSize = 2 then (geHalf p m a).toNat
  else Config.geFloatIndex (geWord p m a)

/-- The address of vertex `k` (R372). -/
def Gpu.vertexAddr (g : Gpu) (p : Params) (m : List Host.Cell) (f : VertexFormat) (k : Nat) : Word :=
  g.vaddr + BitVec.ofNat 32 (g.vertexIndex p m f k * f.stride)

/-- The GPU after a PRIM of `count` vertices (R372). -/
def Gpu.advanceAddresses (g : Gpu) (f : VertexFormat) (count : Nat) : Gpu :=
  if f.indexSize = 0 then { g with vaddr := g.vaddr + BitVec.ofNat 32 (count * f.stride) }
  else { g with iaddr := g.iaddr + BitVec.ofNat 32 (count * f.indexSize) }

/-! ## Component decoding (R371) -/

/-- Element `i` of a component at `a`, as an integer where it is 8 or 16 bits: signed or unsigned. -/
def elementInt (p : Params) (m : List Host.Cell) (a : Word) (code i : Nat) (signed : Bool) : Int :=
  let at_ := a + BitVec.ofNat 32 (i * elementSize code)
  if code = 1 then (if signed then (geByte p m at_).toInt else ((geByte p m at_).toNat : Int))
  else (if signed then (geHalf p m at_).toInt else ((geHalf p m at_).toNat : Int))

/-- Element `i` as a binary32 value: an integer divided by `2^k8` or `2^k16`, or the stored binary32 value (R371). -/
def elementFloat (p : Params) (m : List Host.Cell) (a : Word) (code i : Nat) (signed : Bool) (k8 k16 : Nat) : Word :=
  if code = 3 then geWord p m (a + BitVec.ofNat 32 (4 * i))
  else geOfInt (elementInt p m a code i signed) (if code = 1 then k8 else k16)

/-- A position in transform mode (R371). -/
def positionElement (p : Params) (m : List Host.Cell) (a : Word) (code i : Nat) : Word :=
  elementFloat p m a code i true 7 15

/-- A position in through mode: x and y signed, z unsigned (R371). -/
def throughElement (p : Params) (m : List Host.Cell) (a : Word) (code i : Nat) : Word :=
  elementFloat p m a code i (decide (i < 2)) 0 0

/-- The element of `size` bytes at `a`, as raw bits. -/
def rawElement (p : Params) (m : List Host.Cell) (a : Word) (size : Nat) : Word :=
  if size = 1 then (geByte p m a).setWidth 32 else if size = 2 then (geHalf p m a).setWidth 32 else geWord p m a

/-- A vertex colour of a literal type: free channels of the elements that are there (C1 of spec/90_conflicts.md). -/
def VertexFormat.literalColour (f : VertexFormat) (p : Params) (m : List Host.Cell) (a : Word) : Rgba :=
  let raw := (List.range f.colCount).map fun i => rawElement p m (a + BitVec.ofNat 32 (i * f.colElement)) f.colElement
  let channel (i : Nat) : Nat := Config.geColour f.col raw i % 256
  { r := channel 0, g := channel 1, b := channel 2, a := channel 3 }

/-- The colour of a vertex (R371). -/
def Gpu.vertexColour (g : Gpu) (p : Params) (m : List Host.Cell) (f : VertexFormat) (a : Word) : Rgba :=
  if f.col = 0 then
    { r := g.field 0x55 0 8, g := g.field 0x55 8 8, b := g.field 0x55 16 8, a := g.field 0x58 0 8 }
  else match f.types with
    | .literal _ => f.literalColour p m a
    | .packed =>
      if f.col = 7 then decode8888 (geWord p m a) else decodeColour (f.col - 4) ((geHalf p m a).setWidth 32)

/-- Texel-space `s` (i = 0) or `t` (i = 1), as a binary32 value (R371). -/
def Gpu.texCoord (g : Gpu) (p : Params) (m : List Host.Cell) (f : VertexFormat) (a : Word) (i : Nat) : Word :=
  if f.tc = 0 then 0#32
  else if f.through then elementFloat p m a f.tc i false 0 0
  else
    let u := elementFloat p m a f.tc i false 7 15
    let scale := f24 (g.r (if i = 0 then 0x48 else 0x49))
    let offset := f24 (g.r (if i = 0 then 0x4A else 0x4B))
    geMul (geAdd (geMul u scale) offset) (geOfInt (if i = 0 then g.texW else g.texH) 0)

/-! ## Transform (R373, R374) -/

/-- `a*x + b*y + c*z`, left to right. -/
def geDot3 (a x b y c z : Word) : Word := geAdd (geAdd (geMul a x) (geMul b y)) (geMul c z)

/-- Row `i` of a 4x3 matrix applied to a point (R364, R373). -/
def affineRow (m : Vector Word 12) (i : Fin 3) (x y z : Word) : Word :=
  geAdd (geDot3 m[i.val] x m[i.val + 3] y m[i.val + 6] z) m[i.val + 9]

/-- Row `i` of the 4x4 projection applied to a point (R373). -/
def projectRow (m : Vector Word 16) (i : Fin 4) (x y z : Word) : Word :=
  geAdd (geDot3 m[i.val] x m[i.val + 4] y m[i.val + 8] z) m[i.val + 12]

/-- The clip coordinates of a position (R373). -/
def Gpu.clip (g : Gpu) (x y z : Word) (i : Fin 4) : Word :=
  let wx := affineRow g.world 0 x y z
  let wy := affineRow g.world 1 x y z
  let wz := affineRow g.world 2 x y z
  let ex := affineRow g.view 0 wx wy wz
  let ey := affineRow g.view 1 wx wy wz
  let ez := affineRow g.view 2 wx wy wz
  projectRow g.proj i ex ey ez

/-- A vertex ready for rasterization: screen position in 1/16 pixel, depth, texel coordinates as binary32 values, colour,
and whether `cw <= 0` (R373). -/
structure GeVertex where
  X : Int
  Y : Int
  Z : Int
  s : Word
  t : Word
  c : Rgba
  behind : Bool
  deriving DecidableEq, Repr

/-- The screen value of a finite number, or the free value of a number that is not finite (notes/assumptions/16). -/
def screenValue (v : Word) (k seed vertex component : Nat) : Int :=
  (floorScaled v k).getD (Config.geCoord seed vertex component)

/-- Vertex `k` of a PRIM (R371 to R374). -/
def Gpu.vertex (g : Gpu) (p : Params) (m : List Host.Cell) (seed : Nat) (f : VertexFormat) (k : Nat) : GeVertex :=
  let a := g.vertexAddr p m f k
  let pa := a + BitVec.ofNat 32 f.posOffset
  let s := g.texCoord p m f (a + BitVec.ofNat 32 f.tcOffset) 0
  let t := g.texCoord p m f (a + BitVec.ofNat 32 f.tcOffset) 1
  let c := g.vertexColour p m f (a + BitVec.ofNat 32 f.colOffset)
  if f.through then
    { X := screenValue (throughElement p m pa f.pos 0) 16 seed k 0
      Y := screenValue (throughElement p m pa f.pos 1) 16 seed k 1
      Z := screenValue (throughElement p m pa f.pos 2) 1 seed k 2
      s := s, t := t, c := c, behind := false }
  else
    let x := positionElement p m pa f.pos 0
    let y := positionElement p m pa f.pos 1
    let z := positionElement p m pa f.pos 2
    let cw := g.clip x y z 3
    let ndc (i : Fin 4) : Word := geDiv (g.clip x y z i) cw
    let sx := geSub (geAdd (geMul (f24 (g.r 0x42)) (ndc 0)) (f24 (g.r 0x45))) (geOfInt (g.field 0x4C 0 16) 4)
    let sy := geSub (geAdd (geMul (f24 (g.r 0x43)) (ndc 1)) (f24 (g.r 0x46))) (geOfInt (g.field 0x4D 0 16) 4)
    let sz := geAdd (geMul (f24 (g.r 0x44)) (ndc 2)) (f24 (g.r 0x47))
    { X := screenValue sx 16 seed k 0
      Y := screenValue sy 16 seed k 1
      Z := screenValue sz 1 seed k 2
      s := s, t := t, c := c
      behind := fpLess cw 0#32 || fpEqual cw 0#32 }

end Sys2Proof.Machine
end

