-- ==== Sys2Proof/Machine/GpuRaster.lean ====
section
/-! DEFINITION. Primitive assembly and rasterization of rectangles and triangles (spec/62_gpu_pipeline.md rules R368 and
R375 to R381). -/

namespace Sys2Proof.Machine

/-! ## Pixels (R375, R384) -/

/-- The pixels of an axis that can be written, 0 to 1023 (R384), with `lo ≤ 16 p ≤ hi`. -/
def pixelRange (lo hi : Int) : List Nat :=
  (List.range 1024).filter fun p => decide (lo ≤ 16 * (p : Int)) && decide (16 * (p : Int) ≤ hi)

/-- A number for pixel (px, py) of primitive `prim`. -/
def pixelPlace (prim px py : Nat) : Nat := (prim * 1024 + py) * 1024 + px

/-- `floor(256 * num / (den * 2^149))` for a positive or negative `den` (R376). -/
def texelFixed (num den : Int) : Int := (256 * num).fdiv (den * 2 ^ 149)

/-- A number is finite. -/
def fpFinite (v : Word) : Bool :=
  match fpDecode v with
  | .fin _ _ _ => true
  | _ => false

/-- `2^149` times a finite number, exactly. -/
def fpScaled (v : Word) : Int := (fpDecode v).key

/-! ## Rectangles (R377) -/

/-- A rectangle covers pixel (px, py) (R377). -/
def rectCovers (a b : GeVertex) (px py : Nat) : Bool :=
  decide (min a.X b.X ≤ 16 * (px : Int)) && decide (16 * (px : Int) < max a.X b.X) &&
    decide (min a.Y b.Y ≤ 16 * (py : Int)) && decide (16 * (py : Int) < max a.Y b.Y)

/-- A texel coordinate of a rectangle, linear from `va` at `pa` to `vb` at `pb` (R377). -/
def rectTexel (va vb : Word) (pa pb at_ : Int) (seed place comp : Nat) : Int :=
  if fpFinite va && fpFinite vb then
    texelFixed (fpScaled va * (pb - pa) + (fpScaled vb - fpScaled va) * (at_ - pa)) (pb - pa)
  else Config.geCoord seed place comp

/-- The fragment of a rectangle at a covered pixel (R377). -/
def rectFragment (seed prim : Nat) (a b : GeVertex) (px py : Nat) : Fragment where
  px := px
  py := py
  z := b.Z
  c := b.c
  S := rectTexel a.s b.s a.X b.X (16 * (px : Int)) seed (pixelPlace prim px py) 3
  T := rectTexel a.t b.t a.Y b.Y (16 * (py : Int)) seed (pixelPlace prim px py) 4
  place := pixelPlace prim px py

/-- The fragments of a rectangle in row order (R375, R377). -/
def rectFragments (seed prim : Nat) (a b : GeVertex) : List Fragment :=
  (pixelRange (min a.Y b.Y) (max a.Y b.Y)).flatMap fun py =>
    (pixelRange (min a.X b.X) (max a.X b.X)).filterMap fun px =>
      if rectCovers a b px py then some (rectFragment seed prim a b px py) else none

/-! ## Triangles (R378 to R380) -/

/-- `E(a, b, P)` (R378). -/
def edge (a b : GeVertex) (x y : Int) : Int := (b.X - a.X) * (y - a.Y) - (b.Y - a.Y) * (x - a.X)

/-- An edge is top-left (R379). -/
def topLeft (a b : GeVertex) : Bool := (decide (a.Y = b.Y) && decide (a.X < b.X)) || decide (b.Y < a.Y)

/-- Edge (a, b) admits a point where its function is `w` (R379). -/
def edgeAdmits (a b : GeVertex) (w : Int) : Bool := decide (0 ≤ w + (if topLeft a b then 0 else -1))

/-- `culled(area, cull_dir)` (R378). -/
def culled (sense : CullSense) (dir : Bool) (area : Int) : Bool :=
  match sense with
  | .reference => if dir then decide (0 < area) else decide (area < 0)
  | .opposite => if dir then decide (area < 0) else decide (0 < area)

/-- A canonical triangle of positive area, with the colour of its provoking vertex (R378, R380). -/
structure Triangle where
  v0 : GeVertex
  v1 : GeVertex
  v2 : GeVertex
  area : Int
  provoking : Rgba
  deriving DecidableEq, Repr

/-- Triangle setup (R378); `none` where the triangle is discarded. -/
def setupTriangle (g : Gpu) (sense : CullSense) (v0 v1 v2 : GeVertex) : Option Triangle :=
  let area := edge v0 v1 v2.X v2.Y
  if area = 0 then none
  else if g.flag 0x1D 0 && culled sense (g.flag 0x9B 0) area then none
  else if area < 0 then some { v0 := v0, v1 := v2, v2 := v1, area := -area, provoking := v2.c }
  else some { v0 := v0, v1 := v1, v2 := v2, area := area, provoking := v2.c }

/-- The three edge functions at a pixel (R379). -/
def Triangle.weights (t : Triangle) (px py : Nat) : Int × Int × Int :=
  let x : Int := 16 * px
  let y : Int := 16 * py
  (edge t.v1 t.v2 x y, edge t.v2 t.v0 x y, edge t.v0 t.v1 x y)

/-- The triangle covers pixel (px, py) (R379). -/
def Triangle.covers (t : Triangle) (px py : Nat) : Bool :=
  let w := t.weights px py
  edgeAdmits t.v1 t.v2 w.1 && edgeAdmits t.v2 t.v0 w.2.1 && edgeAdmits t.v0 t.v1 w.2.2

/-- `w0 a + w1 b + w2 c`. -/
def weigh (w : Int × Int × Int) (a b c : Int) : Int := w.1 * a + w.2.1 * b + w.2.2 * c

/-- A channel interpolated and rounded down (R380). -/
def Triangle.channel (t : Triangle) (w : Int × Int × Int) (a b c : Nat) : Nat := ((weigh w a b c).fdiv t.area).toNat

/-- The colour of a fragment: gouraud or flat (R380). -/
def Triangle.colour (t : Triangle) (gouraud : Bool) (w : Int × Int × Int) : Rgba :=
  if gouraud then
    { r := t.channel w t.v0.c.r t.v1.c.r t.v2.c.r
      g := t.channel w t.v0.c.g t.v1.c.g t.v2.c.g
      b := t.channel w t.v0.c.b t.v1.c.b t.v2.c.b
      a := t.channel w t.v0.c.a t.v1.c.a t.v2.c.a }
  else t.provoking

/-- A texel coordinate of a fragment (R376, R380). -/
def Triangle.texel (t : Triangle) (w : Int × Int × Int) (a b c : Word) (seed place comp : Nat) : Int :=
  if fpFinite a && fpFinite b && fpFinite c then texelFixed (weigh w (fpScaled a) (fpScaled b) (fpScaled c)) t.area
  else Config.geCoord seed place comp

/-- The fragment of a triangle at a covered pixel (R380). -/
def Triangle.fragment (t : Triangle) (gouraud : Bool) (seed prim px py : Nat) : Fragment :=
  let w := t.weights px py
  { px := px
    py := py
    z := (weigh w t.v0.Z t.v1.Z t.v2.Z).fdiv t.area
    c := t.colour gouraud w
    S := t.texel w t.v0.s t.v1.s t.v2.s seed (pixelPlace prim px py) 3
    T := t.texel w t.v0.t t.v1.t t.v2.t seed (pixelPlace prim px py) 4
    place := pixelPlace prim px py }

/-- The fragments of a triangle in row order (R375, R379). -/
def Triangle.fragments (t : Triangle) (gouraud : Bool) (seed prim : Nat) : List Fragment :=
  (pixelRange (min t.v0.Y (min t.v1.Y t.v2.Y)) (max t.v0.Y (max t.v1.Y t.v2.Y))).flatMap fun py =>
    (pixelRange (min t.v0.X (min t.v1.X t.v2.X)) (max t.v0.X (max t.v1.X t.v2.X))).filterMap fun px =>
      if t.covers px py then some (t.fragment gouraud seed prim px py) else none

/-! ## Assembly (R368) -/

/-- A primitive by the numbers of its vertices. -/
inductive Primitive where
  | rect (a b : Nat)
  | tri (a b c : Nat)
  deriving DecidableEq, Repr

/-- The primitives of a PRIM in order (R368); types that are not drawn give none (R399). -/
def assemble (type count : Nat) : List Primitive :=
  if type = 3 then (List.range (count / 3)).map fun k => .tri (3 * k) (3 * k + 1) (3 * k + 2)
  else if type = 4 then
    (List.range (count - 2)).map fun k => if k % 2 = 0 then .tri k (k + 1) (k + 2) else .tri (k + 1) k (k + 2)
  else if type = 5 then (List.range (count - 2)).map fun k => .tri 0 (k + 1) (k + 2)
  else if type = 6 then (List.range (count / 2)).map fun k => .rect (2 * k) (2 * k + 1)
  else []

/-- The fragments of one primitive, in order; none where a vertex has `cw <= 0` (R373). -/
def Primitive.fragments (g : Gpu) (sense : CullSense) (vertex : Nat → GeVertex) (seed prim : Nat) (p : Primitive) :
    List Fragment :=
  match p with
  | .rect a b => if (vertex a).behind || (vertex b).behind then [] else rectFragments seed prim (vertex a) (vertex b)
  | .tri a b c =>
    if (vertex a).behind || (vertex b).behind || (vertex c).behind then []
    else match setupTriangle g sense (vertex a) (vertex b) (vertex c) with
      | none => []
      | some t => t.fragments (g.flag 0x50 0) seed prim

/-- One primitive is rasterized completely (R367). -/
def State.drawPrimitive (d : DrawContext) (vertex : Nat → GeVertex) (seed : Nat) (s : State) (k : Nat) (p : Primitive) :
    State :=
  (p.fragments s.gpu s.par.cullSense vertex seed k).foldl (fun s f => s.shade d f) s

/-- The primitives of a PRIM, numbered from `k`. -/
def State.drawAll (d : DrawContext) (vertex : Nat → GeVertex) (seed : Nat) : State → Nat → List Primitive → State
  | s, _, [] => s
  | s, k, p :: ps => State.drawAll d vertex seed (s.drawPrimitive d vertex seed k p) (k + 1) ps

/-- A PRIM of `count` vertices is drawn (R367, R368). Texels are read from memory as it is at the start of the command
(R389; notes/assumptions/41). -/
def State.draw (s : State) (through : Bool) (type count : Nat) (vertex : Nat → GeVertex) : State :=
  (State.drawAll { through := through, snapshot := s.mem } vertex s.draws { s with gpu := s.gpu.cacheTexture s.par } 0
    (assemble type count)).drew 1

/-- The action of PRIM (R368, R369, R372). Vertices too are read from memory as it is at the start of the command
(notes/assumptions/41). -/
def State.prim (s : State) (p : BitVec 24) : State :=
  let f := s.gpu.vertexFormat s.par.vertexTypes
  let count := (p.extractLsb' 0 16).toNat
  if f.refused then s
  else
    let s1 := s.draw f.through (p.extractLsb' 16 3).toNat count (s.gpu.vertex s.par s.mem s.draws f)
    { s1 with gpu := s1.gpu.advanceAddresses f count }

end Sys2Proof.Machine
end

