-- ==== Sys2Proof/Machine/Allocator.lean ====
section
/-! DEFINITION. The memory allocator (spec/61_kernel_scheduler.md rules R337 to R342). -/

namespace Sys2Proof.Machine

/-- `n` rounded up to a multiple of `a`. -/
def roundUp (n a : Nat) : Nat := if a = 0 then n else (n + (a - 1)) / a * a

/-- `n` rounded down to a multiple of `a`. -/
def roundDown (n a : Nat) : Nat := if a = 0 then n else n / a * a

/-- Where an allocation in block `b` starts from the low end, if it fits (R338). -/
def Block.fitLow (b : Block) (size align : Nat) : Option Nat :=
  let s := roundUp b.start align
  if b.free && decide (s + size ≤ b.start + b.size) then some s else none

/-- Where an allocation in block `b` starts from the high end, if it fits (R338). -/
def Block.fitHigh (b : Block) (size align : Nat) : Option Nat :=
  let s := roundDown (b.start + b.size - size) align
  if b.free && decide (size ≤ b.size) && decide (b.start ≤ s) then some s else none

/-- A block of the given bounds, or nothing where it is empty (R338). -/
def blockPiece (start stop : Nat) : List Block :=
  if start < stop then [{ start := start, size := stop - start, free := true, name := "" }] else []

/-- The name of an allocated block, which R337 wants non-empty: "block" where the caller gives none (notes/assumptions/42). -/
def blockName (name : String) : String := if name = "" then "block" else name

/-- The free block `b` split around the allocation `[s, s + size)` (R338). -/
def Block.split (b : Block) (s size : Nat) (name : String) : List Block :=
  blockPiece b.start s ++ [{ start := s, size := size, free := false, name := blockName name }] ++
    blockPiece (s + size) (b.start + b.size)

/-- The list with the block that starts at `at_` replaced by `pieces`. -/
def replaceBlock (at_ : Nat) (pieces : List Block) : List Block → List Block
  | [] => []
  | b :: rest => if b.start = at_ then pieces ++ rest else b :: replaceBlock at_ pieces rest

/-- Of the candidates (block, start), the one `best` prefers: the smallest block, the earliest in the list on a tie (R338). -/
def smallerFit : List (Block × Nat) → Option (Block × Nat)
  | [] => none
  | c :: rest =>
    match smallerFit rest with
    | none => some c
    | some d => if d.1.size < c.1.size then some d else some c

/-- The candidate `ALLOC_FIT` chooses (R338). R338 states `best` of the low end only; the model applies it to the high end too,
where the earliest candidate of a tie is the highest block (notes/assumptions/42). -/
def chooseFit (fit : AllocFit) (cs : List (Block × Nat)) : Option (Block × Nat) :=
  match fit with
  | .first => cs.head?
  | .best => smallerFit cs

/-- The candidates in the order of R338: ascending from the low end, descending from the high end. -/
def Allocator.candidates (a : Allocator) (size align : Nat) (fromHigh : Bool) : List (Block × Nat) :=
  if fromHigh then a.blocks.reverse.filterMap fun b => (b.fitHigh size align).map fun s => (b, s)
  else a.blocks.filterMap fun b => (b.fitLow size align).map fun s => (b, s)

/-- `Alloc(size, name, align, from_high, pad)` (R338): the address, and the allocator after; `none` is the failure. An
alignment of 0 means the default. -/
def Allocator.alloc (p : Params) (a : Allocator) (size : Nat) (name : String) (align : Nat) (fromHigh pad : Bool) :
    Option (Nat × Allocator) :=
  let al := if align = 0 then p.allocDefaultAlign else align
  let sz := if pad then roundUp size al else size
  if sz = 0 then none
  else match chooseFit p.allocFit (a.candidates sz al fromHigh) with
    | none => none
    | some (b, s) => some (s, { a with blocks := replaceBlock b.start (b.split s sz name) a.blocks })

/-- `AllocAt(addr, size, name)` (R339). A size of 0, of which R339 says nothing, fails (notes/assumptions/42). -/
def Allocator.allocAt (a : Allocator) (addr size : Nat) (name : String) : Option Allocator :=
  if size = 0 then none
  else match a.blocks.find? fun b => b.free && decide (b.start ≤ addr) && decide (addr + size ≤ b.start + b.size) with
    | none => none
    | some b => some { a with blocks := replaceBlock b.start (b.split addr size name) a.blocks }

/-- Adjacent free blocks merged (R337, R340). -/
def coalesce : List Block → List Block
  | [] => []
  | b :: rest =>
    match coalesce rest with
    | [] => [b]
    | c :: rest' =>
      if b.free && c.free then { b with size := b.size + c.size, name := "" } :: rest' else b :: c :: rest'

/-- The allocated block that starts exactly at `addr` becomes free; `none` where there is none (R340). -/
def Allocator.free (a : Allocator) (addr : Nat) : Option Allocator :=
  if a.blocks.any fun b => b.start == addr && !b.free then
    some { a with blocks := coalesce (a.blocks.map fun b =>
      if b.start = addr ∧ b.free = false then { b with free := true, name := "" } else b) }
  else none

/-- Consecutive blocks from `at_` to `stop`, with no gap, no empty block, no two free neighbours, and a name on every
allocated block (R337). -/
def blocksCover : List Block → Nat → Nat → Bool
  | [], at_, stop => at_ == stop
  | b :: rest, at_, stop =>
    b.start == at_ && decide (0 < b.size) && (b.free || b.name != "") &&
      !(b.free && rest.head?.any (fun c => c.free)) && blocksCover rest (at_ + b.size) stop

/-- The allocator's invariant (R337). -/
def Allocator.wf (a : Allocator) : Bool := blocksCover a.blocks a.start (a.start + a.size)

end Sys2Proof.Machine
end

