-- ==== Sys2Proof/Machine/Kernel.lean ====
section
/-! DEFINITION. Kernel objects, the ready queue, waits and wake-ups, callback injection and return, the context switch and
the scheduler (spec/61_kernel_scheduler.md rules R305 to R330). -/

namespace Sys2Proof.Machine

/-! ## Objects and UIDs (R305 to R307) -/

/-- The object in slot `uid`. -/
def Kernel.lookup (k : Kernel) (uid : Nat) : Option KernelObject :=
  (k.objects.find? fun o => o.1 == uid).map (fun o => o.2)

/-- The table with `o` in slot `u`, in rising order of slots. -/
def insertObject : List (Nat × KernelObject) → Nat → KernelObject → List (Nat × KernelObject)
  | [], u, o => [(u, o)]
  | (k, p) :: rest, u, o =>
    if u < k then (u, o) :: (k, p) :: rest
    else if u = k then (u, o) :: rest
    else (k, p) :: insertObject rest u o

/-- Slot `uid` holds `o`. -/
def Kernel.put (k : Kernel) (uid : Nat) (o : KernelObject) : Kernel :=
  { k with objects := insertObject k.objects uid o }

/-- Slot `uid` becomes empty (R307). -/
def Kernel.remove (k : Kernel) (uid : Nat) : Kernel :=
  { k with objects := k.objects.filter fun o => o.1 != uid }

/-- The slot after `i`, wrapping to 1 (R306). -/
def nextSlot (slots i : Nat) : Nat := if i + 1 < slots then i + 1 else 1

/-- The first empty slot of `n` slots from `i` on (R306). -/
def scanSlots (occupied : Nat → Bool) (slots : Nat) : Nat → Nat → Option Nat
  | 0, _ => none
  | n + 1, i => if occupied i then scanSlots occupied slots n (nextSlot slots i) else some i

/-- The UID the next object gets (R306); `none` when every slot is full. -/
def Kernel.freshUid (k : Kernel) (slots : Nat) : Option Nat :=
  scanSlots (fun i => (k.lookup i).isSome) slots (slots - 1)
    (if 1 ≤ k.uidNext ∧ k.uidNext < slots then k.uidNext else 1)

/-- A new object (R306): its UID and the kernel with it. -/
def Kernel.create (k : Kernel) (slots : Nat) (o : KernelObject) : Option (Nat × Kernel) :=
  match k.freshUid slots with
  | none => none
  | some uid => some (uid, { k.put uid o with uidNext := nextSlot slots uid })

/-- `lookup(uid, Thread)` (R307). -/
def Kernel.thread? (k : Kernel) (uid : Nat) : Option Thread :=
  match k.lookup uid with
  | some { name := _, payload := .thread t } => some t
  | _ => none

/-- `lookup(uid, Semaphore)` (R307). -/
def Kernel.semaphore? (k : Kernel) (uid : Nat) : Option Semaphore :=
  match k.lookup uid with
  | some { name := _, payload := .semaphore x } => some x
  | _ => none

/-- `lookup(uid, Mutex)` (R307). -/
def Kernel.mutex? (k : Kernel) (uid : Nat) : Option Mutex :=
  match k.lookup uid with
  | some { name := _, payload := .mutex x } => some x
  | _ => none

/-- `lookup(uid, EventFlag)` (R307). -/
def Kernel.eventFlag? (k : Kernel) (uid : Nat) : Option EventFlag :=
  match k.lookup uid with
  | some { name := _, payload := .eventFlag x } => some x
  | _ => none

/-- `lookup(uid, Callback)` (R307). -/
def Kernel.callback? (k : Kernel) (uid : Nat) : Option Callback :=
  match k.lookup uid with
  | some { name := _, payload := .callback x } => some x
  | _ => none

/-- `lookup(uid, MemoryBlock)` (R307). -/
def Kernel.memoryBlock? (k : Kernel) (uid : Nat) : Option Nat :=
  match k.lookup uid with
  | some { name := _, payload := .memoryBlock a } => some a
  | _ => none

/-- The kernel's state changes by `f`. -/
def State.withKernel (s : State) (f : Kernel → Kernel) : State := { s with kernel := f s.kernel }

/-- The payload of the object in slot `uid`, if there is one, becomes `p`. -/
def State.setPayload (s : State) (uid : Nat) (p : Payload) : State :=
  match s.kernel.lookup uid with
  | none => s
  | some o => s.withKernel fun k => k.put uid { o with payload := p }

/-- Thread `uid`, if there is one, changes by `f`. -/
def State.updThread (s : State) (uid : Nat) (f : Thread → Thread) : State :=
  match s.kernel.thread? uid with
  | none => s
  | some t => s.setPayload uid (.thread (f t))

/-- The current thread (R309). -/
def Kernel.currentThread? (k : Kernel) : Option (Nat × Thread) :=
  match k.current with
  | none => none
  | some c => (k.thread? c).map fun t => (c, t)

/-- `current <- c`. -/
def State.setCurrent (s : State) (c : Option Nat) : State := s.withKernel fun k => { k with current := c }

/-! ## The ready queue (R311, R314) -/

/-- `uid` joins the tail of level `p`. -/
def Kernel.enqueueTail (k : Kernel) (uid : Nat) (p : Fin 128) : Kernel :=
  { k with ready := k.ready.set p (k.ready[p] ++ [uid]) }

/-- `uid` joins the head of level `p`. -/
def Kernel.enqueueHead (k : Kernel) (uid : Nat) (p : Fin 128) : Kernel :=
  { k with ready := k.ready.set p (uid :: k.ready[p]) }

/-- `uid` leaves level `p`. -/
def Kernel.dequeue (k : Kernel) (uid : Nat) (p : Fin 128) : Kernel :=
  { k with ready := k.ready.set p (k.ready[p].filter fun u => u != uid) }

/-- The head of level `p` moves to its tail (R314). -/
def Kernel.rotate (k : Kernel) (p : Fin 128) : Kernel :=
  { k with ready := k.ready.set p (match k.ready[p] with
      | [] => []
      | u :: rest => rest ++ [u]) }

/-- The head of the first non-empty level. -/
def firstOf : List (List Nat) → Option Nat
  | [] => none
  | [] :: rest => firstOf rest
  | (u :: _) :: _ => some u

/-- The thread the scan of R313 step 2 finds: the head of the least non-empty level. -/
def Kernel.firstReady (k : Kernel) : Option Nat := firstOf k.ready.toList

/-- No `ready[q]` is non-empty for `q < p` (R313 step 1). -/
def Kernel.noneAbove (k : Kernel) (p : Fin 128) : Bool := (k.ready.toList.take p.val).all fun l => l.isEmpty

/-- Thread `uid` becomes READY at the head or the tail of its level (R310). -/
def State.makeReady (s : State) (uid : Nat) (atHead : Bool) : State :=
  match s.kernel.thread? uid with
  | none => s
  | some t =>
    (s.updThread uid fun t => { t with state := .ready }).withKernel fun k =>
      if atHead then k.enqueueHead uid t.priority else k.enqueueTail uid t.priority

/-- Thread `uid` leaves its level if it is READY (R310). -/
def State.unready (s : State) (uid : Nat) : State :=
  match s.kernel.thread? uid with
  | none => s
  | some t => if t.state = .ready then s.withKernel fun k => k.dequeue uid t.priority else s

/-! ## Wait outcome cells (R320) -/

/-- The outcome cell `w`. -/
def Kernel.waitObject? (k : Kernel) (w : Nat) : Option WaitObject :=
  (k.waitObjects.find? fun o => o.1 == w).map (fun o => o.2)

/-- The cell `w` ends with `result` (R321). -/
def Kernel.endCell (k : Kernel) (w : Nat) (result : Option Word) : Kernel :=
  { k with waitObjects := k.waitObjects.map fun o => if o.1 = w then (w, { ended := true, result := result }) else o }

/-- The cell `w` is no longer in use. -/
def Kernel.dropCell (k : Kernel) (w : Nat) : Kernel :=
  { k with waitObjects := k.waitObjects.filter fun o => o.1 != w }

/-! ## Callbacks becoming pending (R326, R330; notes/assumptions/19) -/

/-- A pending callback of `t` could be injected now (R327). -/
def Thread.injectable (t : Thread) : Bool := !t.callbacksPending.isEmpty && (t.callbacksRunning.isEmpty || t.reentrant)

/-- A thread in WAIT that allows callbacks and has one to run becomes READY for it, its wait kept (R330). -/
def State.readyForCallback (s : State) (uid : Nat) : State :=
  match s.kernel.thread? uid with
  | none => s
  | some t => if t.state = .wait ∧ t.waitAllowsCallbacks ∧ t.injectable then s.makeReady uid false else s

/-- Callback `cb` becomes pending on its thread if it has been notified, the thread allows callbacks, and it is neither
pending nor running (R326). The notify count has 32 bits, and one that has wrapped to 0 counts as not notified: the model's choice
(notes/assumptions/19). -/
def State.makePending (s : State) (cb : Nat) : State :=
  match s.kernel.callback? cb with
  | none => s
  | some c =>
    match s.kernel.thread? c.thread with
    | none => s
    | some t =>
      if c.notifyCount ≠ 0#32 ∧ (t.allowsCallbacks ∨ t.waitAllowsCallbacks) ∧ ¬ t.callbacksPending.contains cb ∧
          ¬ t.callbacksRunning.contains cb then
        (s.updThread c.thread fun t => { t with callbacksPending := t.callbacksPending ++ [cb] }).readyForCallback c.thread
      else s

/-- The UIDs of the callbacks that thread `uid` owns. -/
def Kernel.callbacksOf (k : Kernel) (uid : Nat) : List Nat :=
  (k.objects.map fun o => o.1).filter fun u =>
    match k.callback? u with
    | none => false
    | some c => c.thread == uid

/-- Every notified callback of `uid` that may become pending does (R326). Of several that were notified while the thread allowed
none, R326 gives no order: the model takes the order of their UIDs (notes/assumptions/19). -/
def State.collectPending (s : State) (uid : Nat) : State :=
  (s.kernel.callbacksOf uid).foldl State.makePending s

/-! ## Waiting and waking (R320, R321) -/

/-- `WaitCurrentThread(reason, allow_callbacks)` (R320) without its `Reschedule`. The fresh outcome cell has the number
`nextWaitObject` of the state before. Inside a script, operations after it still find the thread current (notes/assumptions/10). -/
def State.waitCurrent (s : State) (reason : WaitReason) (allow : Bool) : State :=
  match s.kernel.current with
  | none => s
  | some c =>
    let w := s.kernel.nextWaitObject
    let s1 := (s.unready c).withKernel fun k =>
      { k with waitObjects := k.waitObjects ++ [(w, { ended := false, result := none })], nextWaitObject := w + 1 }
    let s2 := s1.updThread c fun t =>
      { t with state := .wait, waitReason := some reason, waitAllowsCallbacks := allow, waitObject := some w }
    (s2.collectPending c).readyForCallback c

/-- `WakeUpThread(T)` (R321): `none` when it fails, because the wait reason is still set. -/
def State.wakeUp (s : State) (uid : Nat) : Option State :=
  match s.kernel.thread? uid with
  | none => none
  | some t =>
    if t.waitReason.isSome then none
    else
      let s1 := s.updThread uid fun t => { t with waitAllowsCallbacks := false }
      match t.state with
      | .wait => some (s1.makeReady uid false)
      | .waitSuspend => some (s1.updThread uid fun t => { t with state := .suspend })
      | _ => some s1

/-- Cell `w` is that of the wait that the callback in flight of `t` has interrupted (R329), and `t` is in no other wait. -/
def Thread.interruptedOn (t : Thread) (w : Nat) : Bool :=
  t.waitObject.isNone && (t.callbackStack.findSome? fun e => e.2).any fun n => n.waitObject == w

/-- A primitive ends the wait of `uid` on cell `w` (R321). A thread inside a callback holds that cell in a snapshot: its wake-up
only clears what the wait allowed, and R328 looks at the cell when the callback returns. -/
def State.endWait (s : State) (uid w : Nat) (result : Option Word) : State :=
  let s1 := s.withKernel fun k => k.endCell w result
  match s1.kernel.thread? uid with
  | none => s1
  | some t =>
    if t.waitObject = some w then
      let s2 := s1.updThread uid fun t => { t with waitReason := none }
      (s2.wakeUp uid).getD s2
    else if t.interruptedOn w then s1.updThread uid fun t => { t with waitAllowsCallbacks := false }
    else s1

/-- The cell `w` is in use and has not ended. -/
def Kernel.waiting (k : Kernel) (w : Nat) : Bool :=
  match k.waitObject? w with
  | none => false
  | some o => !o.ended

/-- The waits in progress for `reason`, as (thread, cell), in UID order: current waits, and waits that a callback has
interrupted (R329) and that nothing has ended since (R321: a second wake fails). -/
def Kernel.waitersFor (k : Kernel) (reason : WaitReason) : List (Nat × Nat) :=
  k.objects.flatMap fun o =>
    match o.2.payload with
    | .thread t =>
      (match t.waitReason, t.waitObject with
        | some r, some w => if r = reason then [(o.1, w)] else []
        | _, _ => []) ++
      t.callbackStack.filterMap fun e =>
        match e.2 with
        | some { reason := some r, waitObject := w } => if r = reason ∧ k.waiting w then some (o.1, w) else none
        | _ => none
    | _ => []

/-- Every wait for `reason` ends with `result`, `none` for a normal end. -/
def State.wakeAll (s : State) (reason : WaitReason) (result : Option Word) : State :=
  (s.kernel.waitersFor reason).foldl (fun s e => s.endWait e.1 e.2 result) s

/-! ## Callback injection and return (R327 to R329) -/

/-- The pending-wait snapshot of a thread (R329). -/
def Thread.snapshot (t : Thread) : Option WaitSnapshot :=
  t.waitObject.map fun w => { reason := t.waitReason, waitObject := w }

/-- `SwitchState(T)` (R327): the head of the pending callbacks is injected into the live context, and the wait it interrupts, if
any, goes to the snapshot (R329, R330; notes/assumptions/20). -/
def State.switchState (s : State) (uid : Nat) : State :=
  match s.kernel.thread? uid with
  | none => s
  | some t =>
    match t.callbacksPending with
    | [] => s
    | cb :: rest =>
      if t.callbacksRunning.isEmpty || t.reentrant then
        match s.kernel.callback? cb with
        | none => s.updThread uid fun t => { t with callbacksPending := rest }
        | some c =>
          let s1 := s.updThread uid fun t =>
            { t with
              callbacksPending := rest
              callbacksRunning := cb :: t.callbacksRunning
              callbackStack := (s.cpu, t.snapshot) :: t.callbackStack
              waitReason := none
              waitObject := none }
          let s2 := s1.setPayload cb (.callback { c with notifyCount := 0#32, notifyArg := 0#32 })
          let regs := ((((s.cpu.setX 4#5 c.notifyCount).setX 5#5 c.notifyArg).setX 6#5 c.common).setX 31#5
            s.par.callbackReturnAddr)
          { s2 with cpu := regs.jumpTo c.entry }
      else s

/-! ## The context switch and the scheduler (R313, R318) -/

/-- A wait of `uid` that has ended delivers its result to `v0` of the live context (R320). -/
def State.deliver (s : State) (uid : Nat) : State :=
  match s.kernel.thread? uid with
  | none => s
  | some t =>
    match t.waitObject with
    | none => s
    | some w =>
      match s.kernel.waitObject? w with
      | none => s
      | some o =>
        if o.ended then
          let s1 := (s.updThread uid fun t => { t with waitObject := none }).withKernel fun k => k.dropCell w
          match o.result with
          | none => s1
          | some v => s1.setX 2#5 v
        else s

/-- The outgoing half of R318: the live context goes to the current thread, and if it is RUN it becomes READY at the head
(preempted) or the tail (yielding) of its level (R314). -/
def State.saveCurrent (s : State) (atHead : Bool) : State :=
  match s.kernel.currentThread? with
  | none => s
  | some (c, t) =>
    let s1 := s.updThread c fun t => { t with context := s.cpu }
    if t.state = .run then s1.makeReady c atHead else s1

/-- The incoming half of R318: thread `n` leaves the ready queue, becomes RUN and current, its context is restored, a wait
that has ended delivers its result, and a pending callback is injected. -/
def State.switchIn (s : State) (n : Nat) (restore : Bool) : State :=
  match s.kernel.thread? n with
  | none => s
  | some t =>
    let s1 := ((s.withKernel fun k => k.dequeue n t.priority).updThread n fun t => { t with state := .run }).setCurrent
      (some n)
    (((if restore then { s1 with cpu := t.context } else s1).deliver n).switchState n).resume

/-- `SwitchTo(n)` (R318); `yield` says where an outgoing RUN thread goes (R314). A switch to the thread already current
saves and restores nothing. -/
def State.switchTo (s : State) (n : Nat) (yield : Bool) : State :=
  if s.kernel.current = some n then s.switchIn n false else (s.saveCurrent (!yield)).switchIn n true

/-- Thread `c` re-enters the wait it was in (R328): WAIT, unless it has a callback to run (R330). -/
def State.reenterWait (s : State) (c : Nat) : State :=
  (((s.unready c).updThread c fun t => { t with state := .wait }).collectPending c).readyForCallback c

/-- A thread that was READY to run a callback in its wait, and that is switched in with that callback deleted and the wait not
ended, re-enters the wait as at a callback return, and the scheduler runs again (R328, R310; notes/assumptions/33). -/
def State.recheckWait (s : State) : State :=
  match s.kernel.currentThread? with
  | none => s
  | some (c, t) => if t.state = .run ∧ t.waitReason.isSome then (s.reenterWait c).request true else s

/-- Steps 2 to 4 of R313. With nothing ready the CPU stops stepping; the step function then advances the event queue
(R291, R298). -/
def State.pickNext (s : State) (forced : Bool) : State :=
  match s.kernel.firstReady with
  | some n => (s.switchTo n forced).recheckWait
  | none =>
    let s1 := (s.saveCurrent (!forced)).setCurrent none
    match s1.kernel.firstReady with
    | some n => (s1.switchTo n forced).recheckWait
    | none => { s1 with run := .notStepping }

/-- No `Reschedule()` is requested any more. -/
def State.clearRequest (s : State) : State := s.withKernel fun k => { k with reschedRequested := false }

/-- `Reschedule(forced)` (R313). It serves every request made before it (R298). -/
def State.reschedule (s : State) (forced : Bool) : State :=
  let s := s.clearRequest
  match s.kernel.currentThread? with
  | none => s.pickNext forced
  | some (c, t) =>
    if t.state = .run ∧ ¬ forced ∧ s.kernel.noneAbove t.priority then
      (if t.waitAllowsCallbacks || t.allowsCallbacks then s.switchState c else s).resume
    else s.pickNext forced

/-- The current thread is RUN. -/
def Kernel.currentRuns (k : Kernel) : Bool :=
  match k.currentThread? with
  | none => false
  | some (_, t) => t.state == .run

/-- The end of a host action (R286 steps 5 and 6, R289): the scheduler runs where the action asks for it (`some forced`), where a
request is pending, or where the current thread is no longer RUN; else the same thread goes on. A process that is closing does
not go on (R296); the thread that asked for the exit stays current and RUN (notes/assumptions/24). -/
def State.endHost (s : State) (ask : Option Bool) : State :=
  if s.kernel.closing then { s with run := .notStepping }
  else match ask with
    | some forced => s.reschedule forced
    | none => if s.kernel.reschedRequested || !s.kernel.currentRuns then s.reschedule false else s.resume

/-- Either asks for the scheduler, a forced one before an unforced one. -/
def joinAsk (a b : Option Bool) : Option Bool :=
  match a, b with
  | none, b => b
  | a, none => a
  | some x, some y => some (x || y)

/-- The CPU has a callback in flight: the current thread's saved-context stack is not empty (R290). -/
def Kernel.callbackInFlight (k : Kernel) : Bool :=
  match k.currentThread? with
  | none => false
  | some (_, t) => !t.callbackStack.isEmpty

/-- The current thread `c` continues after a callback: its next pending callback, if any, if it is still RUN (R328). -/
def State.continueRun (s : State) (c : Nat) : State :=
  let s1 := s.collectPending c
  (if s1.kernel.currentRuns then s1.switchState c else s1).endHost none

/-- `CallbackReturn(T)` for the current thread (R328). -/
def State.callbackReturn (s : State) : State :=
  match s.kernel.currentThread? with
  | none => s.endHost none
  | some (c, t) =>
    match t.callbackStack with
    | [] => s.endHost none
    | (ctx, w) :: rest =>
      let s1 := s.updThread c fun t =>
        { t with callbackStack := rest, callbacksRunning := t.callbacksRunning.tail }
      let s2 := { s1 with cpu := ctx }
      match w with
      | none => s2.continueRun c
      | some n =>
        let s3 := s2.updThread c fun t => { t with waitObject := some n.waitObject }
        match s3.kernel.waitObject? n.waitObject with
        | none => s2.continueRun c
        | some o =>
          if o.ended then (s3.deliver c).continueRun c
          else
            ((s3.updThread c fun t => { t with waitReason := n.reason, waitAllowsCallbacks := true }).reenterWait c).reschedule
              false

end Sys2Proof.Machine
end

