-- ==== Sys2Proof/Machine/Sync.lean ====
section
/-! DEFINITION. Wait records, timeouts and cancellation, and the semaphore, the mutex and the event flag
(spec/61_kernel_scheduler.md rules R323 to R325 and R331 to R336). -/

namespace Sys2Proof.Machine

/-! ## Wait queues (R325) -/

/-- The wait queue of a primitive. -/
def Payload.queue (p : Payload) : List WaitRecord :=
  match p with
  | .semaphore x => x.queue
  | .mutex x => x.queue
  | .eventFlag x => x.queue
  | _ => []

/-- The primitive has the priority attribute. -/
def Payload.priorityOrdered (p : Payload) : Bool :=
  match p with
  | .semaphore x => x.priorityOrdered
  | .mutex x => x.priorityOrdered
  | .eventFlag x => x.priorityOrdered
  | _ => false

/-- The primitive with the wait queue `q`. -/
def Payload.withQueue (p : Payload) (q : List WaitRecord) : Payload :=
  match p with
  | .semaphore x => .semaphore { x with queue := q }
  | .mutex x => .mutex { x with queue := q }
  | .eventFlag x => .eventFlag { x with queue := q }
  | p => p

/-- The priority number of a thread, 127 for a UID that is no thread. -/
def Kernel.priorityOf (k : Kernel) (uid : Nat) : Nat :=
  match k.thread? uid with
  | none => 127
  | some t => t.priority.val

/-- `r` joins a queue sorted by ascending priority number, after its equals (R325). -/
def insertByPriority (prio : Nat → Nat) (r : WaitRecord) : List WaitRecord → List WaitRecord
  | [] => [r]
  | q :: rest => if prio r.thread < prio q.thread then r :: q :: rest else q :: insertByPriority prio r rest

/-- `r` joins the wait queue of `p` (R325). -/
def Payload.enqueue (prio : Nat → Nat) (p : Payload) (r : WaitRecord) : Payload :=
  p.withQueue (if p.priorityOrdered then insertByPriority prio r p.queue else p.queue ++ [r])

/-- A priority-ordered queue sorted again, stably (R312, R325). -/
def Payload.resort (prio : Nat → Nat) (p : Payload) : Payload :=
  if p.priorityOrdered then p.withQueue (p.queue.foldl (fun q r => insertByPriority prio r q) []) else p

/-- The payload of every object changes by `f`. -/
def Kernel.mapPayloads (k : Kernel) (f : Payload → Payload) : Kernel :=
  { k with objects := k.objects.map fun o => (o.1, { o.2 with payload := f o.2.payload }) }

/-- Every record that satisfies `p` leaves every queue. -/
def Kernel.dropRecords (k : Kernel) (p : WaitRecord → Bool) : Kernel :=
  k.mapPayloads fun x => x.withQueue (x.queue.filter fun r => !p r)

/-! ## Blocking, timeouts, cancellation (R320, R323, R324) -/

/-- `normalized(raw)` in microseconds (R323). -/
def normalized (m : TimeoutMin) (raw : Nat) : Nat := if raw < m.threshold then m.latency else raw

/-- The current thread waits on primitive `uid` with the condition `cond`; `tp` is the timeout pointer, 0 for none (R320,
R323, R325). -/
def State.blockOn (s : State) (uid : Nat) (reason : WaitReason) (m : TimeoutMin) (cond : WaitCond) (tp : Word)
    (allow : Bool) : Except HaltReason State :=
  match s.kernel.current, s.kernel.lookup uid with
  | some c, some o =>
    let w := s.kernel.nextWaitObject
    let join (s : State) (timer : Option Nat) : State :=
      (s.setPayload uid (o.payload.enqueue s.kernel.priorityOf
        { thread := c, waitObject := w, timer := timer, cond := cond })).waitCurrent reason allow
    if tp = 0#32 then .ok (join s none)
    else match s.loadWord tp with
      | .error h => .error h
      | .ok raw =>
        let h := s.kernel.nextHandle
        .ok (join (s.schedule (normalized m raw.toNat * s.par.cyclesPerUs) (.waitTimeout c w tp reason)) (some h))
  | _, _ => .ok s

/-- The waits of `rs` end with `result`, in order, their timers unscheduled (R324). -/
def State.endRecords (s : State) (rs : List WaitRecord) (result : Option Word) : State :=
  rs.foldl (fun s r => (s.unscheduleTimer r.timer).endWait r.thread r.waitObject result) s

/-- Cancel of primitive `uid` with a status (R324): every record ends, and the queue is empty. -/
def State.cancelAll (s : State) (uid : Nat) (p : Payload) (status : Word) : State :=
  (s.setPayload uid (p.withQueue [])).endRecords p.queue (some status)

/-- Deletion of primitive `uid` (R324). -/
def State.deletePrimitive (s : State) (uid : Nat) (p : Payload) : State :=
  (s.cancelAll uid p s.par.status.delete).withKernel fun k => k.remove uid

/-! ## Semaphore (R331, R332) -/

/-- The needed count of a semaphore's record. -/
def WaitRecord.need (r : WaitRecord) : Nat :=
  match r.cond with
  | .need n => n
  | _ => 0

/-- The wake scan (R331): the count after it, the records that stay, and the records granted. -/
def semaphoreScan (policy : SemaWakePolicy) : Nat → List WaitRecord → Nat × List WaitRecord × List WaitRecord
  | count, [] => (count, [], [])
  | count, r :: rest =>
    if r.need ≤ count then
      let t := semaphoreScan policy (count - r.need) rest
      (t.1, t.2.1, r :: t.2.2)
    else match policy with
      | .headBlocks => (count, r :: rest, [])
      | .skip =>
        let t := semaphoreScan policy count rest
        (t.1, r :: t.2.1, t.2.2)

/-- The wake scan of semaphore `uid`. -/
def State.scanSemaphore (s : State) (uid : Nat) : State :=
  match s.kernel.semaphore? uid with
  | none => s
  | some x =>
    let t := semaphoreScan s.par.semaWakePolicy x.count x.queue
    (s.setPayload uid (.semaphore { x with count := t.1, queue := t.2.1 })).endRecords t.2.2 none

/-- `Wait(need, tp)` (R331). -/
def State.waitSemaphore (s : State) (uid : Nat) (x : Semaphore) (need : Nat) (tp : Word) (allow : Bool) :
    Except HaltReason State :=
  if need ≤ x.count ∧ x.queue = [] then .ok (s.setPayload uid (.semaphore { x with count := x.count - need }))
  else s.blockOn uid (.semaphore uid) s.par.timeoutSemaphore (.need need) tp allow

/-- `Signal(n)` (R331); `none` when the count would exceed the maximum. -/
def State.signalSemaphore (s : State) (uid : Nat) (x : Semaphore) (n : Nat) : Option State :=
  if x.max < x.count + n then none
  else some ((s.setPayload uid (.semaphore { x with count := x.count + n })).scanSemaphore uid)

/-! ## Mutex (R333, R334) -/

/-- The requested count of a mutex's record. -/
def WaitRecord.locks (r : WaitRecord) : Nat :=
  match r.cond with
  | .locks n => n
  | _ => 0

/-- `Lock(n, tp)` by the current thread (R333). -/
def State.lockMutex (s : State) (uid : Nat) (x : Mutex) (n : Nat) (tp : Word) (allow : Bool) : Except HaltReason State :=
  if x.lockCount = 0 then .ok (s.setPayload uid (.mutex { x with owner := s.kernel.current, lockCount := n }))
  else if x.owner = s.kernel.current then .ok (s.setPayload uid (.mutex { x with lockCount := x.lockCount + n }))
  else s.blockOn uid (.mutex uid) s.par.timeoutMutex (.locks n) tp allow

/-- The head of the queue of a mutex whose count has reached 0 is granted (R334). -/
def State.grantMutex (s : State) (uid : Nat) : State :=
  match s.kernel.mutex? uid with
  | none => s
  | some x =>
    if x.lockCount = 0 then
      match x.queue with
      | [] => s.setPayload uid (.mutex { x with owner := none })
      | r :: rest =>
        (s.setPayload uid (.mutex { x with owner := some r.thread, lockCount := r.locks, queue := rest })).endRecords
          [r] none
    else s

/-- `Unlock(n)` by the current thread (R334); `none` is the wrong-state error. -/
def State.unlockMutex (s : State) (uid : Nat) (x : Mutex) (n : Nat) : Option State :=
  if x.owner ≠ s.kernel.current ∨ x.lockCount < n then none
  else some ((s.setPayload uid (.mutex { x with lockCount := x.lockCount - n })).grantMutex uid)

/-! ## Event flag (R335, R336) -/

/-- The match of R335. -/
def flagMatches (pattern bits : Word) (mode : FlagMode) : Bool :=
  match mode with
  | .or => pattern &&& bits != 0#32
  | .and => pattern &&& bits == bits

/-- The pattern after a success (R335). -/
def flagAfter (pattern bits : Word) (clear : Bool) : Word := if clear then pattern &&& ~~~bits else pattern

/-- The pattern as it was goes to the output cell, if one is given (R335); a pointer of 0 gives none (notes/assumptions/42). -/
def State.writeOut (s : State) (out pattern : Word) : Except HaltReason State :=
  if out = 0#32 then .ok s else s.storeChecked out (wordBytes pattern)

/-- The wake scan (R336): the pattern after it, the records that stay, and the records that match with the pattern each
saw. -/
def flagScan : Word → List WaitRecord → Word × List WaitRecord × List (WaitRecord × Word)
  | pattern, [] => (pattern, [], [])
  | pattern, r :: rest =>
    match r.cond with
    | .bits b mode clear _ =>
      if flagMatches pattern b mode then
        let t := flagScan (flagAfter pattern b clear) rest
        (t.1, t.2.1, (r, pattern) :: t.2.2)
      else
        let t := flagScan pattern rest
        (t.1, r :: t.2.1, t.2.2)
    | _ =>
      let t := flagScan pattern rest
      (t.1, r :: t.2.1, t.2.2)

/-- The granted records of a scan end normally, in order, with their output cells written. -/
def State.grantFlags (s : State) : List (WaitRecord × Word) → Except HaltReason State
  | [] => .ok s
  | (r, pattern) :: rest =>
    match r.cond with
    | .bits _ _ _ out =>
      match s.writeOut out pattern with
      | .error h => .error h
      | .ok s1 => (s1.endRecords [r] none).grantFlags rest
    | _ => (s.endRecords [r] none).grantFlags rest

/-- The wake scan of event flag `uid`. -/
def State.scanEventFlag (s : State) (uid : Nat) : Except HaltReason State :=
  match s.kernel.eventFlag? uid with
  | none => .ok s
  | some x =>
    let t := flagScan x.pattern x.queue
    (s.setPayload uid (.eventFlag { x with pattern := t.1, queue := t.2.1 })).grantFlags t.2.2

/-- `Wait(bits, mode, clear, out, tp)` (R335). -/
def State.waitEventFlag (s : State) (uid : Nat) (x : EventFlag) (bits : Word) (mode : FlagMode) (clear : Bool)
    (out tp : Word) (allow : Bool) : Except HaltReason State :=
  if flagMatches x.pattern bits mode then
    (s.setPayload uid (.eventFlag { x with pattern := flagAfter x.pattern bits clear })).writeOut out x.pattern
  else s.blockOn uid (.eventFlag uid) s.par.timeoutEventFlag (.bits bits mode clear out) tp allow

/-- `Set(b)` (R336). -/
def State.setEventFlag (s : State) (uid : Nat) (x : EventFlag) (b : Word) : Except HaltReason State :=
  (s.setPayload uid (.eventFlag { x with pattern := x.pattern ||| b })).scanEventFlag uid

/-- `Clear(b)` (R336). -/
def State.clearEventFlag (s : State) (uid : Nat) (x : EventFlag) (b : Word) : State :=
  s.setPayload uid (.eventFlag { x with pattern := x.pattern &&& b })

/-! ## The end of a thread's waits (R317) -/

/-- The UID of the primitive a wait reason names. -/
def WaitReason.primitive (r : WaitReason) : Option Nat :=
  match r with
  | .semaphore u => some u
  | .mutex u => some u
  | .eventFlag u => some u
  | _ => none

/-- The thread an event acts on. -/
def EventAction.thread? (a : EventAction) : Option Nat :=
  match a with
  | .waitTimeout t _ _ _ => some t
  | .delayEnd t _ => some t
  | .signal _ => none

/-- A display list without thread `uid` among its waiters. -/
def GeList.dropWaiter (l : GeList) (uid : Nat) : GeList := { l with waiters := l.waiters.filter fun w => w != uid }

/-- Every wait of thread `uid` is forgotten: its records leave their queues, its events are unscheduled, and no display list
lists it (R317, R324). The wake scan of the primitives does not run then, as it does after a timeout (R323): R317 does not say, and it is
the model's choice (notes/assumptions/33). -/
def State.dropWaits (s : State) (uid : Nat) : State :=
  let s1 := s.withKernel fun k => k.dropRecords fun r => r.thread == uid
  let s2 := s1.withKernel fun k => { k with events := k.events.filter fun e => e.action.thread? != some uid }
  { s2 with gpu := { s2.gpu with lists := s2.gpu.lists.map fun l => (l.1, l.2.dropWaiter uid) } }

end Sys2Proof.Machine
end

