-- ==== Sys2Proof/Machine/GpuList.lean ====
section
/-! DEFINITION. Display lists and the command processor (spec/62_gpu_pipeline.md rules R354 to R366). -/

namespace Sys2Proof.Machine

/-! ## List records (R354) -/

/-- The list record `id`. -/
def Gpu.list? (g : Gpu) (id : Nat) : Option GeList := (g.lists.find? fun l => l.1 == id).map (fun l => l.2)

/-- The pool with record `id`, in rising order of ids. -/
def insertList : List (Nat × GeList) → Nat → GeList → List (Nat × GeList)
  | [], i, l => [(i, l)]
  | (k, m) :: rest, i, l =>
    if i < k then (i, l) :: (k, m) :: rest
    else if i = k then (i, l) :: rest
    else (k, m) :: insertList rest i l

/-- List record `id` is `l`. -/
def Gpu.setList (g : Gpu) (id : Nat) (l : GeList) : Gpu := { g with lists := insertList g.lists id l }

/-- The GPU changes by `f`. -/
def State.withGpu (s : State) (f : Gpu → Gpu) : State := { s with gpu := f s.gpu }

/-- The free record that `ListEnqueue` takes of a pool of `n`: never used, or no longer valid (R355, R356). R355 does not say which:
the one of the lowest id (notes/assumptions/42). -/
def Gpu.freeList (g : Gpu) (n : Nat) : Option Nat :=
  (List.range n).find? fun i =>
    match g.list? i with
    | none => true
    | some l => !l.valid

/-! ## Addresses (R360, R365, R366) -/

/-- `rel(a)` (R360). -/
def Gpu.rel (g : Gpu) (a : BitVec 24) : Word :=
  ((((g.r 0x10).setWidth 32 <<< 8) &&& 0x0F000000#32) ||| a.setWidth 32) + g.offsetAddr

/-- `rel(p & 0xFFFFFC)` (R360). -/
def Gpu.jumpAddr (g : Gpu) (p : BitVec 24) : Word := g.rel (p &&& 0xFFFFFC#24)

/-- `clut_addr` (R365). -/
def Gpu.clutAddr (g : Gpu) : Word := 0#4 ++ (g.r 0xB1).extractLsb' 16 4 ++ g.r 0xB0

/-- LOADCLUT (R366). -/
def Gpu.loadClut (g : Gpu) (p : Params) (m : List Host.Cell) (blocks : Nat) : Gpu :=
  let n := min (32 * blocks) 1024
  { g with
    clut := Vector.ofFn fun i : Fin 1024 =>
      if i.val < n then geByte p m (g.clutAddr + BitVec.ofNat 32 i.val) else g.clut[i]
    texCache := g.texCache.map TexEntry.clutChanged }

/-! ## Matrix loads (R364) -/

/-- Element `n` of a vector becomes `v`, if there is one. -/
def setElement {k : Nat} (m : Vector Word k) (n : Nat) (v : Word) : Vector Word k :=
  if h : n < k then m.set n v else m

/-! ## The command decoder (R359 to R362) -/

/-- `reg[cmd] <- p` (R359). -/
def Gpu.setReg (g : Gpu) (cmd : BitVec 8) (p : BitVec 24) : Gpu :=
  { g with reg := g.reg.set cmd.toNat p (by have := cmd.isLt; omega) }

/-- The actions on the GPU's own state, after the `reg` write (R360, R362, R364 to R366, R389). -/
def Gpu.action (g : Gpu) (par : Params) (m : List Host.Cell) (cmd : BitVec 8) (p : BitVec 24) : Gpu :=
  match cmd with
  | 0x01#8 => { g with vaddr := g.rel p }
  | 0x02#8 => { g with iaddr := g.rel p }
  | 0x13#8 => { g with offsetAddr := p.setWidth 32 <<< 8 }
  | 0x3A#8 => { g with worldN := (p.extractLsb' 0 4).toNat }
  | 0x3B#8 =>
    if g.worldN < 12 then { g with world := setElement g.world g.worldN (f24 p), worldN := g.worldN + 1 } else g
  | 0x3C#8 => { g with viewN := (p.extractLsb' 0 4).toNat }
  | 0x3D#8 => if g.viewN < 12 then { g with view := setElement g.view g.viewN (f24 p), viewN := g.viewN + 1 } else g
  | 0x3E#8 => { g with projN := (p.extractLsb' 0 4).toNat }
  | 0x3F#8 => if g.projN < 16 then { g with proj := setElement g.proj g.projN (f24 p), projN := g.projN + 1 } else g
  | 0xC4#8 => g.loadClut par m (p.extractLsb' 0 6).toNat
  | 0xCB#8 => { g with texCache := [] }
  | _ => g

/-- The flow-control actions on the executing list and `offset_addr` (R360); `l.current` is already past the command. -/
def Gpu.flow (g : Gpu) (depth : Nat) (l : GeList) (cmd : BitVec 8) (p : BitVec 24) : Gpu × GeList :=
  match cmd with
  | 0x08#8 => (g, { l with current := g.jumpAddr p })
  | 0x0A#8 =>
    if l.callStack.length < depth then
      (g, { l with callStack := (l.current, g.offsetAddr) :: l.callStack, current := g.jumpAddr p })
    else (g, l)
  | 0x0B#8 =>
    match l.callStack with
    | [] => (g, l)
    | (c, o) :: rest => ({ g with offsetAddr := o }, { l with current := c, callStack := rest })
  | 0x0C#8 => (g, { l with status := .completed })
  | 0x0F#8 => (g, { l with finished := true })
  | 0x14#8 => ({ g with offsetAddr := l.current - 4#32 }, l)
  | _ => (g, l)

/-- The bits of `p` at the places of `layout`, the first the least significant. -/
def arrangeBits (p : BitVec 24) : List Nat → Nat
  | [] => 0
  | i :: rest => (if p.getLsbD i then 1 else 0) + 2 * arrangeBits p rest

/-- What `GE_COMMANDS` says of a command word where it differs from R362. -/
def geMeaning (p : Params) (w : Word) : Option GeMeaning :=
  (p.geCommands.find? fun c => c.number == w.extractLsb' 24 8).map GeCommand.meaning

/-- The number of the `reg` entry that a command word writes, and its parameter (R359): those of the command of R362 that
`GE_COMMANDS` makes of it, and the word's own where it makes none (notes/assumptions/15). -/
def geCommand (p : Params) (w : Word) : BitVec 8 × BitVec 24 :=
  match geMeaning p w with
  | some (.command cmd layout) =>
    (cmd, if layout = [] then w.extractLsb' 0 24 else BitVec.ofNat 24 (arrangeBits (w.extractLsb' 0 24) layout))
  | _ => (w.extractLsb' 24 8, w.extractLsb' 0 24)

/-- The number of the free actions of a command word that is no command of R362, and `none` for a command of R362. -/
def geOther (p : Params) (w : Word) : Option Nat :=
  match geMeaning p w with
  | some (.other n) => some n
  | _ => none

/-- The command `cmd` of R362 with parameter `p` (R359), for the list record `id`, `l` with `current` already past the command. -/
def State.command (s : State) (id : Nat) (l : GeList) (cmd : BitVec 8) (p : BitVec 24) : State :=
  let g := (s.gpu.setReg cmd p).action s.par s.mem cmd p
  let (g', l') := g.flow s.par.geStackDepth l cmd p
  let s1 := { s with gpu := g'.setList id l' }
  if cmd = 0x04#8 then s1.prim p else s1

/-! ## Fields and actions of another `GE_COMMANDS` (R362; notes/assumptions/15) -/

/-- One thing that a command of another `GE_COMMANDS` does. -/
inductive GeOp where
  /-- the configuration record of R352 becomes `g`'s: fields, matrices, CLUT, addresses and texture cache, not the lists -/
  | configure (g : Gpu)
  /-- the position of the executing list, its call stack, and whether it ends or has finished drawing (R360) -/
  | flow (current : Word) (callStack : List (Word × Word)) (ended finished : Bool)
  /-- a command of R362 with a parameter of its own -/
  | command (cmd : BitVec 8) (p : BitVec 24)
  /-- a PRIM of a type of R368 with vertices decoded in another way, such as from C1's literal types of spec/90_conflicts.md -/
  | draw (through : Bool) (type : Nat) (vertices : List GeVertex)
  /-- a write through `GpuWrite` (R356) -/
  | write (address : Word) (bytes : List Byte)
  deriving DecidableEq, Repr

/-- What the free command number `n` does (its number, the state after R359's `reg` write, the id of the executing list, the
parameter): a free value. -/
opaque Config.geScript : Nat → State → Nat → BitVec 24 → List GeOp

/-- Vertex `k` of a list, its channels as 8-bit numbers; one past the end counts as behind the eye (R373). -/
def freeVertex (vs : List GeVertex) (k : Nat) : GeVertex :=
  match vs[k]? with
  | some v => { v with c := { r := v.c.r % 256, g := v.c.g % 256, b := v.c.b % 256, a := v.c.a % 256 } }
  | none => { X := 0, Y := 0, Z := 0, s := 0#32, t := 0#32, c := Rgba.zero, behind := true }

/-- The configuration of `g'` with the lists of `g`. -/
def Gpu.configured (g g' : Gpu) : Gpu := { g' with lists := g.lists, queue := g.queue }

/-- The executing list after a `flow` operation. -/
def GeList.flowed (l : GeList) (current : Word) (callStack : List (Word × Word)) (ended finished : Bool) : GeList :=
  { l with
    current := current
    callStack := callStack
    status := if ended then .completed else l.status
    finished := finished }

/-- One operation of a free command, on the list record `id`. -/
def State.geOperation (s : State) (id : Nat) (o : GeOp) : State :=
  match o with
  | .configure g => s.withGpu fun g0 => g0.configured g
  | .flow current callStack ended finished =>
    match s.gpu.list? id with
    | none => s
    | some l => s.withGpu fun g => g.setList id (l.flowed current callStack ended finished)
  | .command cmd p =>
    match s.gpu.list? id with
    | none => s
    | some l => s.command id l cmd p
  | .draw through type vs => s.draw through type vs.length (freeVertex vs)
  | .write a bs => s.geWrite a bs

/-- The operations of a free command, in order. -/
def State.geOperations (s : State) (id : Nat) (os : List GeOp) : State := os.foldl (fun s o => s.geOperation id o) s

/-- `Execute(L, w)` (R359) for the list record `id`, `l` with `current` already past the command. -/
def State.executeCommand (s : State) (id : Nat) (l : GeList) (w : Word) : State :=
  let (cmd, p) := geCommand s.par w
  match geOther s.par w with
  | none => s.command id l cmd p
  | some n =>
    let s1 := s.withGpu fun g => (g.setReg cmd p).setList id l
    s1.geOperations id (Config.geScript n s1 id p)

/-! ## RunLists, one command at a time (R356, R357; notes/assumptions/13) -/

/-- `GpuRead(current, 4)` of a list, `none` where a byte of it is unmapped (R356, R398). -/
def listFetch (p : Params) (m : List Host.Cell) (a : Word) : Option Word :=
  if (translate p a).isSome && (translate p (a + 1#32)).isSome && (translate p (a + 2#32)).isSome &&
      (translate p (a + 3#32)).isSome then some (geWord p m a)
  else none

/-- The list record `id` has completed: its waiters are woken in order and it leaves the queue (R356, R358). Where there was one,
the host call that runs the lists has woken a thread (R289). -/
def State.completeList (s : State) (id : Nat) (l : GeList) : State :=
  let s1 := s.withGpu fun g =>
    { (g.setList id { l with status := .completed, valid := false, waiters := [] }) with
      queue := g.queue.filter fun i => i != id }
  (l.waiters.foldl (fun s t =>
    (s.kernel.waitersFor (.geList id)).foldl (fun s e => if e.1 = t then s.endWait e.1 e.2 none else s) s) s1).request
      (!l.waiters.isEmpty)

/-- The end of `RunLists()` (R356): the end of the host call, or the rest of the script that it stands in, which then has the ask for
`Reschedule` beside its own. -/
def State.endLists (s : State) (rest : Option HostScript) (ask : Option Bool) : State :=
  match rest with
  | none => s.endHost ask
  | some f => s.enterHost (.script { f with resched := joinAsk f.resched ask })

/-- One step of `RunLists()`: one command of the head list, its completion, or its end: with `Reschedule(false)` when the queue is
empty, and as R289 says when the head list stalls (R356, R357). -/
def State.geStep (s : State) (rest : Option HostScript) : State :=
  match s.gpu.queue with
  | [] => s.endLists rest (some false)
  | id :: later =>
    match s.gpu.list? id with
    | none => s.withGpu fun g => { g with queue := later }
    | some l =>
      if l.stall ≠ 0#32 ∧ l.current = l.stall then
        (s.withGpu fun g => g.setList id { l with status := .stalled }).endLists rest none
      else match listFetch s.par s.mem l.current with
        | none => s.completeList id l
        | some w =>
          let l1 := { l with status := .running, current := l.current + 4#32 }
          let s1 := s.executeCommand id l1 w
          match s1.gpu.list? id with
          | none => s1
          | some l2 => if l2.status = .completed then s1.completeList id l2 else s1

/-! ## Host operations (R355) -/

/-- A list record enqueued (R355). -/
def GeList.create (start stall : Word) : GeList where
  start := start
  current := start
  stall := stall
  valid := true
  status := .queued
  waiters := []
  callStack := []
  finished := false

/-- `ListEnqueue(start, stall)` without `RunLists` (R355): the id; `none` where no record is free. -/
def State.listEnqueue (s : State) (start stall : Word) : Option (Nat × State) :=
  match s.gpu.freeList s.par.geMaxLists with
  | none => none
  | some id =>
    some (id, s.withGpu fun g => { (g.setList id (GeList.create start stall)) with queue := g.queue ++ [id] })

/-- `ListUpdateStall(id, stall)` without `RunLists` (R355); `none` where the id is not valid. -/
def State.listUpdateStall (s : State) (id : Nat) (stall : Word) : Option State :=
  match s.gpu.list? id with
  | none => none
  | some l =>
    if l.valid then
      some (s.withGpu fun g =>
        g.setList id { l with stall := stall, status := if l.status = .stalled then .queued else l.status })
    else none

/-- The current thread waits for list `id` (R355, R358). -/
def State.waitList (s : State) (id : Nat) (l : GeList) : State :=
  match s.kernel.current with
  | none => s
  | some c => (s.withGpu fun g => g.setList id { l with waiters := l.waiters ++ [c] }).waitCurrent (.geList id) false

end Sys2Proof.Machine
end

