-- ==== Sys2Proof/Machine/Threads.lean ====
section
/-! DEFINITION. Thread creation, start, exit, deletion, suspension and priority (spec/61_kernel_scheduler.md rules R312 and
R316 to R319), a new thread's first context (spec/10_state.md rules R42, R43), and callback objects (R326). -/

namespace Sys2Proof.Machine

/-! ## Guest memory as the kernel reads and writes it -/

/-- The `n` bytes at guest address `a`. -/
def State.readGuest (s : State) : Word → Nat → Except HaltReason (List Byte)
  | _, 0 => .ok []
  | a, n + 1 =>
    match s.loadByte a with
    | .error h => .error h
    | .ok b =>
      match s.readGuest (a + 1#32) n with
      | .error h => .error h
      | .ok bs => .ok (b :: bs)

/-- The bytes `bs` at guest address `a`. -/
def State.writeGuest (s : State) (a : Word) : List Byte → Except HaltReason State
  | [] => .ok s
  | b :: bs =>
    match s.storeChecked a [b] with
    | .error h => .error h
    | .ok s1 => s1.writeGuest (a + 1#32) bs

/-! ## Creation and start (R316, R42, R43) -/

/-- A thread's first context (R42, R43): draws, numbered from `base`, but for the registers R43 gives. -/
def Context.first (base : Nat) (entry sp argLength argAddress gp : Word) : Context :=
  let c : Context :=
    { gpr := Vector.ofFn fun i => Config.draw (base + i.val)
      hi := Config.draw (base + 31)
      lo := Config.draw (base + 32)
      pc := entry
      nextPc := entry + 4#32
      ds := false
      fpr := Vector.ofFn fun i => Config.draw (base + 33 + i.val)
      fcr31 := Config.draw (base + 65)
      vpr := Vector.ofFn fun i => Config.draw (base + 66 + i.val)
      vpfx := { source := Config.draw (base + 194), target := Config.draw (base + 195)
                dest := Config.draw (base + 196) } }
  (((c.setX 29#5 sp).setX 4#5 argLength).setX 5#5 argAddress).setX 28#5 gp

/-- The draws of a first context. -/
def firstContextDraws : Nat := 197

/-- A DORMANT thread (R316). Its context is built at start. -/
def Thread.create (entry : Word) (priority : Fin 128) (stackBase stackSize module_ : Nat) (gp : Word)
    (allows reentrant : Bool) : Thread where
  context := Context.reset
  priority := priority
  initPriority := priority
  state := .dormant
  waitReason := none
  waitAllowsCallbacks := false
  allowsCallbacks := allows
  reentrant := reentrant
  module := module_
  stackBase := stackBase
  stackSize := stackSize
  callbacksPending := []
  callbacksRunning := []
  callbackStack := []
  waitObject := none
  entry := entry
  gp := gp
  argLength := 0#32
  argAddress := 0#32

/-- Create (R316): the UID; `none` where there is no slot or no memory for the stack. The stack comes from the high end of
the user allocator, padded, at the default alignment (R345). -/
def State.createThread (s : State) (name : String) (entry : Word) (priority : Fin 128) (stack module_ : Nat) (gp : Word)
    (allows reentrant : Bool) : Option (Nat × State) :=
  match s.kernel.userAllocator.alloc s.par stack "stack" 0 true true with
  | none => none
  | some (base, alloc) =>
    let size := roundUp stack s.par.allocDefaultAlign
    match { s.kernel with userAllocator := alloc }.create s.par.uidSlots
        { name := name, payload := .thread (Thread.create entry priority base size module_ gp allows reentrant) } with
    | none => none
    | some (uid, k) => some (uid, { s with kernel := k })

/-- Where the argument block of a thread goes: the top of the stack minus its length rounded up (R43; 16 bytes,
notes/assumptions/30). -/
def Thread.argBlock (t : Thread) (len : Nat) : Nat := t.stackBase + t.stackSize - roundUp len 16

/-- Start (R316) without its `Reschedule`: the argument block is copied to the stack, the first context built, and the thread
becomes READY at the tail of its level. Without an argument block its address is 0 (R43, D49 of spec/92_eei_decisions.md). The
address of the stack block is used as the guest address of the stack, without translation: the model's choice (notes/assumptions/32).
-/
def State.startThread (s : State) (uid : Nat) (t : Thread) (len : Nat) (args : Word) : Except HaltReason State :=
  let sp := BitVec.ofNat 32 (t.argBlock len)
  let args' := if len = 0 then 0#32 else sp
  match s.readGuest args len with
  | .error h => .error h
  | .ok bs =>
    match s.writeGuest sp bs with
    | .error h => .error h
    | .ok s1 =>
      let s2 := s1.updThread uid fun t =>
        { t with
          context := Context.first s.draws t.entry sp (BitVec.ofNat 32 len) args' t.gp
          argLength := BitVec.ofNat 32 len
          argAddress := args' }
      .ok ((s2.makeReady uid false).drew firstContextDraws)

/-! ## Exit and deletion (R317) -/

/-- A thread with no wait and no callback in progress (notes/assumptions/34). -/
def Thread.idle (t : Thread) : Thread :=
  { t with
    waitReason := none
    waitAllowsCallbacks := false
    waitObject := none
    callbacksPending := []
    callbacksRunning := []
    callbackStack := [] }

/-- The current thread exits (R317): DORMANT, and no longer current. -/
def State.exitThread (s : State) : State :=
  match s.kernel.current with
  | none => s
  | some c =>
    (((s.unready c).dropWaits c).updThread c fun t => { t.idle with state := .dormant, context := s.cpu }).setCurrent none

/-- Thread `uid` is deleted (R317): its waits end, its stack is freed, the callbacks it owns and its UID go. -/
def State.deleteThread (s : State) (uid : Nat) (t : Thread) : State :=
  let s1 := (s.unready uid).dropWaits uid
  let s2 := s1.withKernel fun k =>
    { k with userAllocator := (k.userAllocator.free t.stackBase).getD k.userAllocator }
  let s3 := (s2.kernel.callbacksOf uid).foldl (fun s cb => s.withKernel fun k => k.remove cb) s2
  let s4 := s3.withKernel fun k => k.remove uid
  if s.kernel.current = some uid then s4.setCurrent none else s4

/-! ## Suspend, resume, priority (R312, R319) -/

/-- Suspend (R319); `none` is the wrong-state error. -/
def State.suspendThread (s : State) (uid : Nat) (t : Thread) : Option State :=
  match t.state with
  | .run => some (s.updThread uid fun t => { t with state := .suspend })
  | .ready => some ((s.unready uid).updThread uid fun t => { t with state := .suspend })
  | .wait => some (s.updThread uid fun t => { t with state := .waitSuspend })
  | _ => none

/-- Resume (R319); `none` is the wrong-state error. A wait resumed may have a callback to run (R330). -/
def State.resumeThread (s : State) (uid : Nat) (t : Thread) : Option State :=
  match t.state with
  | .suspend => some (s.makeReady uid false)
  | .waitSuspend => some ((s.updThread uid fun t => { t with state := .wait }).readyForCallback uid)
  | _ => none

/-- Priority change (R312): a READY thread moves to the tail of its new level, and priority-ordered queues are sorted
again. -/
def State.changePriority (s : State) (uid : Nat) (t : Thread) (p : Fin 128) : State :=
  let s1 := (s.unready uid).updThread uid fun t => { t with priority := p }
  let s2 := if t.state = .ready then s1.withKernel fun k => k.enqueueTail uid p else s1
  s2.withKernel fun k => k.mapPayloads fun x =>
    if x.queue.any fun r => r.thread == uid then x.resort k.priorityOf else x

/-! ## Callback objects (R326) -/

/-- `Notify(cb, arg)` (R326, R330). -/
def State.notifyCallback (s : State) (cb : Nat) (c : Callback) (arg : Word) : State :=
  (s.setPayload cb (.callback { c with notifyCount := c.notifyCount + 1#32, notifyArg := arg })).makePending cb

/-- Callback `cb` is deleted, and is pending no more. A thread that is READY to run it stays READY: it re-enters its wait when it
is switched in (`State.recheckWait`; notes/assumptions/33). -/
def State.deleteCallback (s : State) (cb : Nat) (c : Callback) : State :=
  (s.withKernel fun k => k.remove cb).updThread c.thread fun t =>
    { t with callbacksPending := t.callbacksPending.filter fun u => u != cb }

end Sys2Proof.Machine
end

