-- ==== Sys2Proof/Machine/HostCall.lean ====
section
/-! DEFINITION. The host call: the ABI, the poison, the behaviours the model gives an import, and the return to a thread
(spec/60_exceptions.md rules R286 to R289). The argument registers of a behaviour are the arguments of the spec's operation
in order, the UID first (notes/assumptions/10). -/

namespace Sys2Proof.Machine

/-! ## The ABI (R287) -/

/-- The register of argument `i`, for `i` below 8: `a0`..`a3`, `t0`..`t3` (R287). -/
def argReg (i : Nat) : Reg := BitVec.ofNat 5 (4 + i)

/-- Argument `i`, for `i` below 8. -/
def State.arg (s : State) (i : Nat) : Word := s.x (argReg i)

/-- Argument `i` from the stack, for `i` from 8 on (R287). -/
def State.stackArg (s : State) (i : Nat) : Except HaltReason Word :=
  s.loadWord (s.x 29#5 + 16#32 + BitVec.ofNat 32 (4 * (i - 8)))

/-- The 64-bit argument in registers `i` and `i + 1`, `i` even, low word first (R287). -/
def State.arg64 (s : State) (i : Nat) : DWord := s.arg (i + 1) ++ s.arg i

/-- An argument as a UID, an id or a count. -/
def State.argNat (s : State) (i : Nat) : Nat := (s.arg i).toNat

/-- An argument as a flag. -/
def State.argBool (s : State) (i : Nat) : Bool := s.arg i != 0#32

/-- What a host behaviour leaves: the state, its results, whether it asks for `Reschedule` (and a forced one), and whether it
runs display lists. -/
structure HostResult where
  state : State
  v0 : Option Word
  v1 : Option Word
  resched : Option Bool
  lists : Bool
  deriving DecidableEq, Repr

/-- A call that returns `v` at once. -/
def HostResult.done (s : State) (v : Word) : HostResult :=
  { state := s, v0 := some v, v1 := none, resched := none, lists := false }

/-- A call that returns `v` and runs the scheduler (R289). -/
def HostResult.sched (s : State) (v : Word) : HostResult :=
  { state := s, v0 := some v, v1 := none, resched := some false, lists := false }

/-- A call that returns `v` and runs display lists (R356). -/
def HostResult.lists_ (s : State) (v : Word) : HostResult :=
  { state := s, v0 := some v, v1 := none, resched := none, lists := true }

/-- `x[r] <- v` where there is a value. -/
def State.setResult (s : State) (r : Reg) (v : Option Word) : State :=
  match v with
  | none => s
  | some v => s.setX r v

/-- `x[4 + k]` to `x[11]` become draws numbered from `base + k` (R287). -/
def poisonFrom (base : Nat) : Nat → Context → Context
  | 0, c => c
  | n + 1, c => (poisonFrom base n c).setX (argReg n) (Config.draw (base + n))

/-- The argument registers are poisoned (R287). -/
def State.poison (s : State) : State := { s with cpu := poisonFrom s.draws 8 s.cpu }.drew 8

/-- Steps 4 and 5 of R286: the results, and the poison unless the import opts out (R287). -/
def HostResult.results (r : HostResult) (optOut : Bool) : State :=
  if optOut then (r.state.setResult 2#5 r.v0).setResult 3#5 r.v1
  else ((r.state.setResult 2#5 r.v0).setResult 3#5 r.v1).poison

/-- Step 6 of R286: the display lists first, or the end of the call. -/
def HostResult.finish (r : HostResult) (optOut : Bool) : State :=
  if r.lists then (r.results optOut).enterHost (.geLists none) else (r.results optOut).endHost r.resched

/-! ## Threads -/

/-- R43 and R343 give a thread its module's gp and do not say which module owns a thread that a host call creates: the model takes
the module and the gp of the thread that creates it, 0 and 0 where none is current (notes/assumptions/42). -/
def hostCreateThread (s : State) : HostResult :=
  let st := s.par.status
  if h : s.argNat 1 < 128 then
    if s.argNat 2 = 0 then .done s st.invalidArgument
    else
      let gp := match s.kernel.currentThread? with
        | some (_, t) => t.gp
        | none => 0#32
      let module_ := match s.kernel.currentThread? with
        | some (_, t) => t.module
        | none => 0
      match s.createThread "thread" (s.arg 0) ⟨s.argNat 1, h⟩ (s.argNat 2) module_ gp ((s.arg 3).getLsbD 0)
          ((s.arg 3).getLsbD 1) with
      | none => .done s st.resourceExhausted
      | some (uid, s1) => .done s1 (BitVec.ofNat 32 uid)
  else .done s st.invalidArgument

def hostStartThread (s : State) : Except HaltReason HostResult :=
  let st := s.par.status
  match s.kernel.thread? (s.argNat 0) with
  | none => .ok (.done s st.unknownUid)
  | some t =>
    if t.state ≠ .dormant then .ok (.done s st.wrongState)
    else if t.stackSize < roundUp (s.argNat 1) 16 then .ok (.done s st.invalidArgument)
    else match s.startThread (s.argNat 0) t (s.argNat 1) (s.arg 2) with
      | .error h => .error h
      | .ok s1 => .ok (.sched s1 0#32)

def hostExitThread (s : State) : HostResult := .sched s.exitThread 0#32

def hostDeleteThread (s : State) : HostResult :=
  match s.kernel.thread? (s.argNat 0) with
  | none => .done s s.par.status.unknownUid
  | some t => .sched (s.deleteThread (s.argNat 0) t) 0#32

def hostChangePriority (s : State) : HostResult :=
  match s.kernel.thread? (s.argNat 0) with
  | none => .done s s.par.status.unknownUid
  | some t =>
    if h : s.argNat 1 < 128 then .sched (s.changePriority (s.argNat 0) t ⟨s.argNat 1, h⟩) 0#32
    else .done s s.par.status.invalidArgument

def hostYield (s : State) : HostResult :=
  { state := s, v0 := some 0#32, v1 := none, resched := some true, lists := false }

/-- R314 gives the rotation of a level without the current thread. On the level of the running thread the model does the same, the READY
head goes to the tail and the caller does not yield: the model's choice (notes/assumptions/42). -/
def hostRotate (s : State) : HostResult :=
  if h : s.argNat 0 < 128 then .done (s.withKernel fun k => k.rotate ⟨s.argNat 0, h⟩) 0#32
  else .done s s.par.status.invalidArgument

def hostSuspend (s : State) : HostResult :=
  match s.kernel.thread? (s.argNat 0) with
  | none => .done s s.par.status.unknownUid
  | some t =>
    match s.suspendThread (s.argNat 0) t with
    | none => .done s s.par.status.wrongState
    | some s1 => .sched s1 0#32

def hostResume (s : State) : HostResult :=
  match s.kernel.thread? (s.argNat 0) with
  | none => .done s s.par.status.unknownUid
  | some t =>
    match s.resumeThread (s.argNat 0) t with
    | none => .done s s.par.status.wrongState
    | some s1 => .sched s1 0#32

/-- The call asks for the scheduler, so that a callback that becomes pending on the caller is injected at once (R313 step 1); R289 does
not name it among the calls that do: the model's choice (notes/assumptions/19). -/
def hostCallbackMode (s : State) : HostResult :=
  match s.kernel.current with
  | none => .done s 0#32
  | some c => .sched ((s.updThread c fun t => { t with allowsCallbacks := s.argBool 0 }).collectPending c) 0#32

/-! ## Waits without a queue (R309), signals (R292, R299) -/

def hostSleep (s : State) : HostResult := .sched (s.waitCurrent .sleep (s.argBool 0)) 0#32

/-- R309 names the sleep and no operation that ends it. The model's choice (notes/assumptions/42): a wakeup ends the sleep of the
thread normally, a thread that does not sleep answers wrong state, and no early wakeup is counted. -/
def hostWakeup (s : State) : HostResult :=
  match s.kernel.thread? (s.argNat 0) with
  | none => .done s s.par.status.unknownUid
  | some _ =>
    match (s.kernel.waitersFor .sleep).find? fun e => e.1 == s.argNat 0 with
    | none => .done s s.par.status.wrongState
    | some e => .sched (s.endWait e.1 e.2 none) 0#32

def hostDelay (s : State) : HostResult :=
  match s.kernel.current with
  | none => .done s 0#32
  | some c =>
    .sched ((s.schedule (s.argNat 0 * s.par.cyclesPerUs) (.delayEnd c s.kernel.nextWaitObject)).waitCurrent .delay
      (s.argBool 1)) 0#32

def hostWaitSignal (s : State) : HostResult := .sched (s.waitCurrent (.signal (s.argNat 0)) (s.argBool 1)) 0#32

/-- The handle of the new event goes to `v0` (notes/assumptions/10: R297 does not say how a guest sees a handle). -/
def hostScheduleSignal (s : State) : HostResult :=
  .done (s.schedule (s.arg64 2).toNat (.signal (s.argNat 0))) (BitVec.ofNat 32 s.kernel.nextHandle)

def hostUnscheduleSignal (s : State) : HostResult := .done (s.unschedule (s.argNat 0)) 0#32

/-! ## Creating, cancelling and deleting objects -/

/-- The priority attribute of a creation call: bit 8 (notes/assumptions/10). -/
def priorityAttr (a : Word) : Bool := a.getLsbD 8

/-- A creation call: the UID, or resource exhaustion where every slot is full, as R306 says; D53 of spec/92_eei_decisions.md calls
that a wrong-state error (notes/assumptions/42). -/
def hostCreate (s : State) (name : String) (p : Payload) : HostResult :=
  match s.kernel.create s.par.uidSlots { name := name, payload := p } with
  | none => .done s s.par.status.resourceExhausted
  | some (uid, k) => .done { s with kernel := k } (BitVec.ofNat 32 uid)

/-- Cancel of a primitive that a lookup has found (R324). -/
def hostCancel (s : State) (p : Option Payload) : HostResult :=
  match p with
  | none => .done s s.par.status.unknownUid
  | some p => .sched (s.cancelAll (s.argNat 0) p s.par.status.cancel) 0#32

/-- Deletion of a primitive that a lookup has found (R324). -/
def hostDelete (s : State) (p : Option Payload) : HostResult :=
  match p with
  | none => .done s s.par.status.unknownUid
  | some p => .sched (s.deletePrimitive (s.argNat 0) p) 0#32

/-- The semaphore of argument 0. -/
def State.argSemaphore (s : State) : Option Payload := (s.kernel.semaphore? (s.argNat 0)).map Payload.semaphore

/-- The mutex of argument 0. -/
def State.argMutex (s : State) : Option Payload := (s.kernel.mutex? (s.argNat 0)).map Payload.mutex

/-- The event flag of argument 0. -/
def State.argEventFlag (s : State) : Option Payload := (s.kernel.eventFlag? (s.argNat 0)).map Payload.eventFlag

/-! ## Semaphore, mutex, event flag (R331 to R336) -/

/-- An initial count above the maximum, which R331 does not settle, is an invalid argument (notes/assumptions/42). -/
def hostCreateSemaphore (s : State) : HostResult :=
  if s.argNat 2 < s.argNat 1 then .done s s.par.status.invalidArgument
  else hostCreate s "semaphore"
    (.semaphore { count := s.argNat 1, max := s.argNat 2, priorityOrdered := priorityAttr (s.arg 0), queue := [] })

def hostWaitSemaphore (s : State) : Except HaltReason HostResult :=
  match s.kernel.semaphore? (s.argNat 0) with
  | none => .ok (.done s s.par.status.unknownUid)
  | some x =>
    match s.waitSemaphore (s.argNat 0) x (s.argNat 1) (s.arg 2) (s.argBool 3) with
    | .error h => .error h
    | .ok s1 => .ok (.done s1 0#32)

def hostSignalSemaphore (s : State) : HostResult :=
  match s.kernel.semaphore? (s.argNat 0) with
  | none => .done s s.par.status.unknownUid
  | some x =>
    match s.signalSemaphore (s.argNat 0) x (s.argNat 1) with
    | none => .done s s.par.status.invalidArgument
    | some s1 => .sched s1 0#32

def hostCreateMutex (s : State) : HostResult :=
  hostCreate s "mutex" (.mutex { owner := none, lockCount := 0, priorityOrdered := priorityAttr (s.arg 0), queue := [] })

def hostLockMutex (s : State) : Except HaltReason HostResult :=
  match s.kernel.mutex? (s.argNat 0) with
  | none => .ok (.done s s.par.status.unknownUid)
  | some x =>
    match s.lockMutex (s.argNat 0) x (s.argNat 1) (s.arg 2) (s.argBool 3) with
    | .error h => .error h
    | .ok s1 => .ok (.done s1 0#32)

def hostUnlockMutex (s : State) : HostResult :=
  match s.kernel.mutex? (s.argNat 0) with
  | none => .done s s.par.status.unknownUid
  | some x =>
    match s.unlockMutex (s.argNat 0) x (s.argNat 1) with
    | none => .done s s.par.status.wrongState
    | some s1 => .sched s1 0#32

def hostCreateEventFlag (s : State) : HostResult :=
  hostCreate s "event flag"
    (.eventFlag { pattern := s.arg 1, priorityOrdered := priorityAttr (s.arg 0), queue := [] })

def hostWaitEventFlag (s : State) : Except HaltReason HostResult :=
  match s.kernel.eventFlag? (s.argNat 0) with
  | none => .ok (.done s s.par.status.unknownUid)
  | some x =>
    if s.arg 1 = 0#32 then .ok (.done s s.par.status.invalidArgument)
    else match s.waitEventFlag (s.argNat 0) x (s.arg 1) (if s.argBool 2 then .or else .and) (s.argBool 3) (s.arg 4)
        (s.arg 5) (s.argBool 6) with
      | .error h => .error h
      | .ok s1 => .ok (.done s1 0#32)

def hostSetEventFlag (s : State) : Except HaltReason HostResult :=
  match s.kernel.eventFlag? (s.argNat 0) with
  | none => .ok (.done s s.par.status.unknownUid)
  | some x =>
    match s.setEventFlag (s.argNat 0) x (s.arg 1) with
    | .error h => .error h
    | .ok s1 => .ok (.sched s1 0#32)

def hostClearEventFlag (s : State) : HostResult :=
  match s.kernel.eventFlag? (s.argNat 0) with
  | none => .done s s.par.status.unknownUid
  | some x => .done (s.clearEventFlag (s.argNat 0) x (s.arg 1)) 0#32

/-! ## Callbacks (R326) -/

/-- R326 does not say which thread owns a callback that a guest creates: the calling thread (notes/assumptions/42). -/
def hostCreateCallback (s : State) : HostResult :=
  match s.kernel.current with
  | none => .done s s.par.status.wrongState
  | some c =>
    hostCreate s "callback"
      (.callback { thread := c, entry := s.arg 0, common := s.arg 1, notifyCount := 0#32, notifyArg := 0#32 })

def hostDeleteCallback (s : State) : HostResult :=
  match s.kernel.callback? (s.argNat 0) with
  | none => .done s s.par.status.unknownUid
  | some c => .done (s.deleteCallback (s.argNat 0) c) 0#32

/-- `Notify` asks for the scheduler also where it wakes no thread, so that a callback of the caller is injected at once (R313 step 1);
R289 names only a call that wakes one: the model's choice (notes/assumptions/19). -/
def hostNotifyCallback (s : State) : HostResult :=
  match s.kernel.callback? (s.argNat 0) with
  | none => .done s s.par.status.unknownUid
  | some c => .sched (s.notifyCallback (s.argNat 0) c (s.arg 1)) 0#32

/-! ## Memory (R338 to R341) -/

/-- A MemoryBlock object for the block at `addr` of the allocator `a` (R341): its UID in `v0`, its address in `v1`. -/
def hostNewBlock (s : State) (addr : Nat) (a : Allocator) : HostResult :=
  match { s.kernel with userAllocator := a }.create s.par.uidSlots
      { name := "memory block", payload := .memoryBlock addr } with
  | none => .done s s.par.status.resourceExhausted
  | some (uid, k) =>
    { state := { s with kernel := k }, v0 := some (BitVec.ofNat 32 uid), v1 := some (BitVec.ofNat 32 addr)
      resched := none, lists := false }

def hostAlloc (s : State) : HostResult :=
  if s.argNat 0 = 0 then .done s s.par.status.invalidArgument
  else match s.kernel.userAllocator.alloc s.par (s.argNat 0) "memory block" (s.argNat 1) (s.argBool 2) (s.argBool 3) with
    | none => .done s s.par.status.resourceExhausted
    | some (addr, a) => hostNewBlock s addr a

def hostAllocAt (s : State) : HostResult :=
  if s.argNat 1 = 0 then .done s s.par.status.invalidArgument
  else match s.kernel.userAllocator.allocAt (s.argNat 0) (s.argNat 1) "memory block" with
    | none => .done s s.par.status.resourceExhausted
    | some a => hostNewBlock s (s.argNat 0) a

def hostFree (s : State) : HostResult :=
  match s.kernel.memoryBlock? (s.argNat 0) with
  | none => .done s s.par.status.unknownUid
  | some addr =>
    match s.kernel.userAllocator.free addr with
    | none => .done s s.par.status.unknownUid
    | some a => .done (s.withKernel fun k => { k.remove (s.argNat 0) with userAllocator := a }) 0#32

/-! ## Display lists (R355) -/

def hostListEnqueue (s : State) : HostResult :=
  match s.listEnqueue (s.arg 0) (s.arg 1) with
  | none => .done s s.par.status.resourceExhausted
  | some (id, s1) => .lists_ s1 (BitVec.ofNat 32 id)

def hostListUpdateStall (s : State) : HostResult :=
  match s.listUpdateStall (s.argNat 0) (s.arg 1) with
  | none => .done s s.par.status.unknownUid
  | some s1 => .lists_ s1 0#32

/-- R355 gives no outcome for an id that no record holds: the status of an unknown UID (notes/assumptions/42). -/
def hostListSync (s : State) : HostResult :=
  match s.gpu.list? (s.argNat 0) with
  | none => .done s s.par.status.unknownUid
  | some l => if l.status = .completed then .done s 0#32 else .sched (s.waitList (s.argNat 0) l) 0#32

def hostDrawSync (s : State) : HostResult :=
  match s.gpu.queue.getLast? with
  | none => .done s 0#32
  | some id =>
    match s.gpu.list? id with
    | none => .done s 0#32
    | some l => if l.status = .completed then .done s 0#32 else .sched (s.waitList id l) 0#32

/-! ## Process and time -/

def hostExitProcess (s : State) : HostResult := .done (s.withKernel fun k => { k with closing := true }) 0#32

def hostCycles (s : State) : HostResult :=
  { state := s, v0 := some (BitVec.ofNat 32 s.cycles), v1 := some (BitVec.ofNat 32 (s.cycles / 2 ^ 32))
    resched := none, lists := false }

/-! ## Operations and their sequences -/

/-- One operation of the kernel or the GPU, its arguments in the argument registers. -/
def runCall (op : KernelCall) (s : State) : Except HaltReason HostResult :=
  match op with
  | .exitProcess => .ok (hostExitProcess s)
  | .getCycles => .ok (hostCycles s)
  | .createThread => .ok (hostCreateThread s)
  | .startThread => hostStartThread s
  | .exitThread => .ok (hostExitThread s)
  | .deleteThread => .ok (hostDeleteThread s)
  | .changePriority => .ok (hostChangePriority s)
  | .yieldThread => .ok (hostYield s)
  | .rotateReady => .ok (hostRotate s)
  | .suspendThread => .ok (hostSuspend s)
  | .resumeThread => .ok (hostResume s)
  | .setCallbackMode => .ok (hostCallbackMode s)
  | .sleepThread => .ok (hostSleep s)
  | .wakeupThread => .ok (hostWakeup s)
  | .delayThread => .ok (hostDelay s)
  | .waitSignal => .ok (hostWaitSignal s)
  | .scheduleSignal => .ok (hostScheduleSignal s)
  | .unscheduleSignal => .ok (hostUnscheduleSignal s)
  | .createSemaphore => .ok (hostCreateSemaphore s)
  | .waitSemaphore => hostWaitSemaphore s
  | .signalSemaphore => .ok (hostSignalSemaphore s)
  | .cancelSemaphore => .ok (hostCancel s s.argSemaphore)
  | .deleteSemaphore => .ok (hostDelete s s.argSemaphore)
  | .createMutex => .ok (hostCreateMutex s)
  | .lockMutex => hostLockMutex s
  | .unlockMutex => .ok (hostUnlockMutex s)
  | .cancelMutex => .ok (hostCancel s s.argMutex)
  | .deleteMutex => .ok (hostDelete s s.argMutex)
  | .createEventFlag => .ok (hostCreateEventFlag s)
  | .waitEventFlag => hostWaitEventFlag s
  | .setEventFlag => hostSetEventFlag s
  | .clearEventFlag => .ok (hostClearEventFlag s)
  | .cancelEventFlag => .ok (hostCancel s s.argEventFlag)
  | .deleteEventFlag => .ok (hostDelete s s.argEventFlag)
  | .createCallback => .ok (hostCreateCallback s)
  | .deleteCallback => .ok (hostDeleteCallback s)
  | .notifyCallback => .ok (hostNotifyCallback s)
  | .allocMemory => .ok (hostAlloc s)
  | .allocMemoryAt => .ok (hostAllocAt s)
  | .freeMemory => .ok (hostFree s)
  | .geListEnqueue => .ok (hostListEnqueue s)
  | .geListUpdateStall => .ok (hostListUpdateStall s)
  | .geListSync => .ok (hostListSync s)
  | .geDrawSync => .ok (hostDrawSync s)

/-- The arguments `args` in the argument registers from number `i` on. -/
def withArgs : List Word → Nat → Context → Context
  | [], _, c => c
  | v :: vs, i, c => withArgs vs (i + 1) (c.setX (argReg i) v)

/-- One operation of a script (R286 step 3, R292). The arguments of a kernel operation stand in the argument registers only for
that operation, and its own results go nowhere (notes/assumptions/10). -/
def HostResult.run (r : HostResult) (o : HostOp) : Except HaltReason HostResult :=
  match o with
  | .store a bs =>
    match r.state.writeGuest a bs with
    | .error h => .error h
    | .ok s => .ok { r with state := s }
  | .call op args =>
    match runCall op { r.state with cpu := withArgs args 0 r.state.cpu } with
    | .error h => .error h
    | .ok q =>
      .ok { r with
        state := { q.state with cpu := r.state.cpu }, resched := joinAsk r.resched q.resched, lists := r.lists || q.lists }
  | .wake src v => .ok { r with state := r.state.wakeAll (.signal src) v, resched := joinAsk r.resched (some false) }
  | .createFile name => .ok { r with state := (hostCreate r.state name .file).state }
  | .createDirectory name => .ok { r with state := (hostCreate r.state name .directory).state }
  | .remove uid =>
    match r.state.kernel.lookup uid with
    | some { name := _, payload := .module _ _ } => .ok { r with state := r.state.withKernel fun k => k.remove uid }
    | some { name := _, payload := .file } => .ok { r with state := r.state.withKernel fun k => k.remove uid }
    | some { name := _, payload := .directory } => .ok { r with state := r.state.withKernel fun k => k.remove uid }
    | _ => .ok r
  | .result v => .ok { r with v0 := some v }
  | .resultHigh v => .ok { r with v1 := some v }

/-- The operations of a script, in order, up to the first that runs display lists, and those that are left (R355). What follows an
operation that puts the calling thread into a wait, suspends it or ends it happens at once, as R286 has one indivisible action, on the
thread that is current then: that is the model's choice, and so is what a second wait does (notes/assumptions/10). -/
def HostResult.runAll (r : HostResult) : List HostOp → Except HaltReason (HostResult × List HostOp)
  | [] => .ok (r, [])
  | o :: os =>
    match r.run o with
    | .error h => .error h
    | .ok r1 => if r1.lists then .ok (r1, os) else r1.runAll os

/-! ## Scripts (R286 step 3, R292, R355) -/

/-- The run status at the point where an event fired. -/
def EventPoint.status (p : EventPoint) : RunStatus :=
  match p with
  | .running => .running
  | .hleCall code => .inHost (.hleCall code)
  | .callbackReturn => .inHost .callbackReturn
  | .notStepping => .notStepping

/-- The end of a script: of its host call (R286 steps 4 to 6), with its `Reschedule` forced where one of its operations yields (R314),
whatever else asks for an unforced one, as R356 does at the end of `RunLists` (the model's choice, notes/assumptions/10); or of the
action of its event, after which the CPU stands where the event fired, or does not step in a process that is closing (R296). -/
def HostResult.endScript (r : HostResult) (origin : ScriptOrigin) : State :=
  match origin with
  | .call optOut => r.finish optOut
  | .event p => if r.state.kernel.closing then { r.state with run := .notStepping } else { r.state with run := p.status }

/-- A script goes on: its operations up to `RunLists`, which then runs with the rest of the script waiting for it, or to its end. Where
a guest access halts, nothing since the last `RunLists` of the script happens (notes/assumptions/21). -/
def State.runScript (s : State) (f : HostScript) : Except HaltReason State :=
  match HostResult.runAll { state := s, v0 := f.v0, v1 := f.v1, resched := f.resched, lists := false } f.ops with
  | .error h => .error h
  | .ok (r, rest) =>
    if r.lists then
      .ok (r.state.enterHost (.geLists (some { f with ops := rest, v0 := r.v0, v1 := r.v1, resched := r.resched })))
    else .ok (r.endScript f.origin)

/-- Host behaviour `n` from the beginning: the free script `Config.hostScript n` of the state it starts in. -/
def State.startScript (s : State) (n : Nat) (origin : ScriptOrigin) : Except HaltReason State :=
  s.runScript { ops := Config.hostScript n s, v0 := none, v1 := none, resched := none, origin := origin }

/-- The rest of a script, after its `RunLists`. -/
def State.scriptStep (s : State) (f : HostScript) : State :=
  match s.runScript f with
  | .error h => s.haltHere h
  | .ok t => t

/-! ## The call (R286, R288) -/

/-- The host behaviour of an import (R286 steps 3 to 6, R288). -/
def runBehaviour (b : HleBehaviour) (optOut : Bool) (s : State) : Except HaltReason State :=
  match b with
  | .unimplemented => .ok ((HostResult.done s 0#32).finish optOut)
  | .call op =>
    match runCall op s with
    | .error h => .error h
    | .ok r => .ok (r.finish optOut)
  | .other n => s.startScript n (.call optOut)

/-- `HLE_IMPORTS[code]`: its behaviour and its opt-out flag; an index with no entry is unimplemented (R286, R288). -/
def State.importOf (s : State) (code : BitVec 20) : HleBehaviour × Bool :=
  match s.kernel.imports[code.toNat]? with
  | none => (.unimplemented, false)
  | some e => (e.behaviour, e.optOut)

/-- The kernel agent's service of `HleCall(code)` (R286): one indivisible action, of which `RunLists()` makes a phase of its own; where a
guest access in it halts, nothing of it happens (notes/assumptions/13, 21). -/
def State.hostCall (s : State) (code : BitVec 20) : State :=
  match runBehaviour (s.importOf code).1 (s.importOf code).2 s with
  | .error h => s.haltHere h
  | .ok t => t

end Sys2Proof.Machine
end

