-- ==== Sys2Proof/Machine/Events.lean ====
section
/-! DEFINITION. Event firing (spec/60_exceptions.md rules R292 and R298, spec/61_kernel_scheduler.md rule R323). -/

namespace Sys2Proof.Machine

/-- The wake scan of the primitive that a reason names (R323). -/
def State.scanPrimitive (s : State) (r : WaitReason) : Except HaltReason State :=
  match r with
  | .semaphore u => .ok (s.scanSemaphore u)
  | .mutex u => .ok (s.grantMutex u)
  | .eventFlag u => s.scanEventFlag u
  | _ => .ok s

/-- A wait timeout fires (R323): the cell is zeroed, the wait ends with the timeout status, its record leaves the queue, and the
wake scan runs. -/
def State.fireTimeout (s : State) (thread w : Nat) (cell : Word) (reason : WaitReason) : Except HaltReason State :=
  match s.storeChecked cell (wordBytes 0#32) with
  | .error h => .error h
  | .ok s1 =>
    ((s1.endWait thread w (some s.par.status.timeout)).withKernel fun k =>
      k.dropRecords fun r => r.waitObject == w).scanPrimitive reason

/-- `INTERRUPT_DISPATCH` (R292) of an event source. -/
def interruptAction (p : Params) (source : Nat) : InterruptAction :=
  match p.interruptDispatch.find? fun e => e.1 == source with
  | none => .wakeWaiters
  | some e => e.2

/-- The point where an event fires. -/
def State.eventPoint (s : State) : EventPoint :=
  match s.run with
  | .running => .running
  | .inHost (.hleCall code) => .hleCall code
  | .inHost .callbackReturn => .callbackReturn
  | _ => .notStepping

/-- Host behaviour `n` as the action of an interrupt (R292): its script, with no guest to give results to. The `Reschedule()` that
follows is R298's, not forced, whatever the script's operations ask for (notes/assumptions/23). -/
def State.interruptScript (s : State) (n : Nat) : Except HaltReason State := s.startScript n (.event s.eventPoint)

/-- The host action of an event (R292, R299). -/
def State.fire (s : State) (a : EventAction) : Except HaltReason State :=
  match a with
  | .waitTimeout t w cell reason => s.fireTimeout t w cell reason
  | .delayEnd t w => .ok (s.endWait t w none)
  | .signal src =>
    match interruptAction s.par src with
    | .wakeWaiters => .ok (s.wakeAll (.signal src) none)
    | .nothing => .ok s
    | .other n => s.interruptScript n

/-- The event that fires first: the least `due`, the earliest scheduled on a tie (R298). -/
def firstEvent : List Event → Option Event
  | [] => none
  | e :: rest =>
    match firstEvent rest with
    | none => some e
    | some d => if d.due < e.due then some d else some e

/-- The event that fires now, if one is due (R298); none once the process is closing (R296). -/
def State.dueEvent (s : State) : Option Event :=
  if s.kernel.closing then none
  else match firstEvent s.kernel.events with
    | none => none
    | some e => if e.due ≤ s.cycles then some e else none

/-- Event `e` fires (R298): it leaves the queue, its action runs, and `Reschedule()` is requested, which runs before the next CPU
step. Where a guest access of the action halts, the event stays pending and nothing of it happens; the events that fired before
it have fired (notes/assumptions/21). An action that runs display lists (R355) goes on in the steps that follow, before anything else,
and the request waits for its end. -/
def State.fireEvent (s : State) (e : Event) : State :=
  match (s.unschedule e.handle).fire e.action with
  | .error h => s.haltHere h
  | .ok s1 => s1.request true

end Sys2Proof.Machine
end

