-- ==== Sys2Proof/Machine/Boot.lean ====
section
/-! DEFINITION. The boot sequence, from the loader's hand-off to the first thread (spec/70_reset_and_hazards.md rules R402 to
R404). -/

namespace Sys2Proof.Machine

/-- The file image of a segment, and zeros up to its size in memory (R404 step 4). A file image longer than that size is taken whole: the
model's choice (notes/assumptions/32). -/
def Segment.image (g : Segment) : List Byte := g.bytes ++ List.replicate (g.memSize - g.bytes.length) 0#8

/-- One segment is placed with `AllocAt` and copied (R404 step 4); `none` where the allocator has no place for it. Three points are
the model's choice (notes/assumptions/32): `AllocAt` takes the translation of the segment's address, and a segment at an unmapped
address has no place, where R404 does not say whether the allocator's addresses (R345) are physical or virtual; an empty segment is
passed over without `AllocAt`; a copy that leaves mapped memory halts. -/
def State.placeSegment (s : State) (name : String) (g : Segment) : Option State :=
  if g.image = [] then some s
  else match translate s.par g.address with
  | none => none
  | some pa =>
    match s.kernel.userAllocator.allocAt pa g.image.length name with
    | none => none
    | some a =>
      match (s.withKernel fun k => { k with userAllocator := a }).writeGuest g.address g.image with
      | .error h => some (s.haltHere h)
      | .ok s1 => some s1

/-- The machine has halted in the boot: the rest of the boot does not happen (R295). -/
def State.bootHalted (s : State) : Bool :=
  match s.run with
  | .halted _ => true
  | _ => false

/-- The segments in order. -/
def State.placeSegments (s : State) (name : String) : List Segment → Option State
  | [] => some s
  | g :: gs =>
    if s.bootHalted then some s
    else match s.placeSegment name g with
      | none => none
      | some s1 => s1.placeSegments name gs

/-- The index of an import, counting from `i`: the first, where the pair stands more than once, which R403 does not say
(notes/assumptions/32). -/
def findImport (m : String) (nid : Word) : List HleImport → Nat → Option Nat
  | [], _ => none
  | e :: rest, i => if e.moduleName = m ∧ e.nid = nid then some i else findImport m nid rest (i + 1)

/-- `HLE_IMPORTS` with an entry for a stub, and the entry's index: an unimplemented entry is added where the pair is not there
(R403). -/
def importIndex (t : List HleImport) (m : String) (nid : Word) : Nat × List HleImport :=
  match findImport m nid t 0 with
  | some i => (i, t)
  | none => (t.length, t ++ [{ moduleName := m, nid := nid, behaviour := .unimplemented, optOut := false }])

/-- The two words of a stub that calls import `i` (R403): `jr $ra` and `syscall i`. The code of SYSCALL has 20 bits: of an index of 2^20
or more the model keeps the low 20, where R403 says nothing (notes/assumptions/32). -/
def stubWords (i : Nat) : Word × Word := (0x03E00008#32, encode (.syscall (BitVec.ofNat 20 i)))

/-- One stub is rewritten (R403): `MemWrite(P, 4)` and `MemWrite(P + 4, 4)`, each of which may halt (R62); what was written before
a halt stays (notes/assumptions/32). -/
def State.rewriteStub (s : State) (b : Stub) : State :=
  let (i, t) := importIndex s.kernel.imports b.moduleName b.nid
  let s0 := s.withKernel fun k => { k with imports := t }
  match s0.storeChecked b.patch (wordBytes (stubWords i).1) with
  | .error h => s0.haltHere h
  | .ok s1 =>
    match s1.storeChecked (b.patch + 4#32) (wordBytes (stubWords i).2) with
    | .error h => s1.haltHere h
    | .ok s2 => s2

/-- The stubs in order (R404 step 5). -/
def State.rewriteStubs (s : State) : List Stub → State
  | [] => s
  | b :: bs => if s.bootHalted then s else (s.rewriteStub b).rewriteStubs bs

/-- The main thread is created and started, and switched in (R402, R404 step 6). Its Module object is made just before it, so with an
empty table the module is UID 1 and the thread UID 2; the spec does not say when it is made (notes/assumptions/42). Nor does it say
whether the main thread allows callbacks (R313) or is reentrant (R327): here it starts with neither (notes/assumptions/19). -/
def State.startMain (s : State) (img : LoadImage) : Option State :=
  match s.kernel.create s.par.uidSlots { name := img.name, payload := .module img.entry img.gp } with
  | none => none
  | some (m, k) =>
    if h : s.par.mainThreadPriority < 128 then
      match { s with kernel := k }.createThread img.name img.entry ⟨s.par.mainThreadPriority, h⟩ s.par.mainThreadStack m
          img.gp false false with
      | none => none
      | some (uid, s1) =>
        match s1.kernel.thread? uid with
        | none => none
        | some t =>
          match s1.startThread uid t 0 0#32 with
          | .error h => some (s1.haltHere h)
          | .ok s2 => some (s2.reschedule false)
    else none

/-- Steps 4 to 6 of R404. -/
def State.boot (s : State) (img : LoadImage) : Option State :=
  match { s with loader := none, kernel := { s.kernel with imports := img.imports } }.placeSegments img.name img.segments with
  | none => none
  | some s1 =>
    let s2 := s1.rewriteStubs img.stubs
    if s2.bootHalted then some s2 else s2.startMain img

end Sys2Proof.Machine
end

