-- ==== Sys2Proof/Machine/Alu.lean ====
section
/-! DEFINITION. Register-register ALU, shifts and bit-field instructions (spec/41_alu_register.md). Operands are read before the
destination is written (R109), from the state before the pc advance. -/

namespace Sys2Proof.Machine

/-! ## Named results -/

/-- The rotation of R113 and R117. -/
def rotateRight (v : Word) (n : Nat) : Word := if n = 0 then v else (v >>> n) ||| (v <<< (32 - n))

/-- The number of consecutive 0 bits of `v` from bit `n - 1` down (R121). -/
def leadingZeros (v : Word) : Nat → Nat
  | 0 => 0
  | n + 1 => if v.getLsbD n then 0 else leadingZeros v n + 1

/-- The number of consecutive 1 bits of `v` from bit `n - 1` down (R122). -/
def leadingOnes (v : Word) : Nat → Nat
  | 0 => 0
  | n + 1 => if v.getLsbD n then leadingOnes v n + 1 else 0

/-- 1 where `c` holds, else 0 (R131, R132, R144, R145). -/
def boolWord (c : Bool) : Word := if c then 1#32 else 0#32

/-- `2^size - 1`, for `size` at most 32 (R135, R136). -/
def lowMask (size : Nat) : Word := BitVec.ofNat 32 (2 ^ size - 1)

/-- The field of EXT (R135). -/
def extractField (v : Word) (pos size : Nat) : Word := (v >>> pos) &&& lowMask size

/-- The mask `M` of INS (R136). -/
def insertMask (pos size : Nat) : Word := lowMask size <<< pos

/-- The result of INS (R136). -/
def insertField (old v : Word) (pos size : Nat) : Word :=
  (old &&& ~~~insertMask pos size) ||| ((v <<< pos) &&& insertMask pos size)

/-- WSBH's result (R137). -/
def swapInHalves (v : Word) : Word :=
  v.extractLsb' 16 8 ++ v.extractLsb' 24 8 ++ v.extractLsb' 0 8 ++ v.extractLsb' 8 8

/-- WSBW's result (R138). -/
def swapBytes (v : Word) : Word :=
  v.extractLsb' 0 8 ++ v.extractLsb' 8 8 ++ v.extractLsb' 16 8 ++ v.extractLsb' 24 8

/-! ## Shifts and rotates -/

/-- SLL (R111). -/
def execSll (rd : Reg) (rt : Reg) (sa : BitVec 5) (s : State) : Out :=
  .next (s.advance.setX rd (s.x rt <<< sa.toNat))

/-- SRL (R112). -/
def execSrl (rd : Reg) (rt : Reg) (sa : BitVec 5) (s : State) : Out :=
  .next (s.advance.setX rd (s.x rt >>> sa.toNat))

/-- ROTR (R113). -/
def execRotr (rd : Reg) (rt : Reg) (sa : BitVec 5) (s : State) : Out :=
  .next (s.advance.setX rd (rotateRight (s.x rt) sa.toNat))

/-- SRA (R114). -/
def execSra (rd : Reg) (rt : Reg) (sa : BitVec 5) (s : State) : Out :=
  .next (s.advance.setX rd ((s.x rt).sshiftRight sa.toNat))

/-- SLLV (R115). -/
def execSllv (rd : Reg) (rt : Reg) (rs : Reg) (s : State) : Out :=
  .next (s.advance.setX rd (s.x rt <<< s.shiftAmount rs))

/-- SRLV (R116). -/
def execSrlv (rd : Reg) (rt : Reg) (rs : Reg) (s : State) : Out :=
  .next (s.advance.setX rd (s.x rt >>> s.shiftAmount rs))

/-- ROTRV (R117). -/
def execRotrv (rd : Reg) (rt : Reg) (rs : Reg) (s : State) : Out :=
  .next (s.advance.setX rd (rotateRight (s.x rt) (s.shiftAmount rs)))

/-- SRAV (R118). -/
def execSrav (rd : Reg) (rt : Reg) (rs : Reg) (s : State) : Out :=
  .next (s.advance.setX rd ((s.x rt).sshiftRight (s.shiftAmount rs)))

/-! ## Conditional moves and bit counts -/

/-- MOVZ (R119). -/
def execMovz (rd : Reg) (rs : Reg) (rt : Reg) (s : State) : Out :=
  .next (if s.x rt = 0#32 then s.advance.setX rd (s.x rs) else s.advance)

/-- MOVN (R120). -/
def execMovn (rd : Reg) (rs : Reg) (rt : Reg) (s : State) : Out :=
  .next (if s.x rt ≠ 0#32 then s.advance.setX rd (s.x rs) else s.advance)

/-- CLZ (R121). -/
def execClz (rd : Reg) (rs : Reg) (s : State) : Out :=
  .next (s.advance.setX rd (BitVec.ofNat 32 (leadingZeros (s.x rs) 32)))

/-- CLO (R122). -/
def execClo (rd : Reg) (rs : Reg) (s : State) : Out :=
  .next (s.advance.setX rd (BitVec.ofNat 32 (leadingOnes (s.x rs) 32)))

/-! ## Add, subtract, logical -/

/-- ADD (R123). -/
def execAdd (rd : Reg) (rs : Reg) (rt : Reg) (s : State) : Out :=
  s.writeChecked (addOverflows (s.x rs) (s.x rt)) rd (s.x rs + s.x rt)

/-- ADDU (R124). -/
def execAddu (rd : Reg) (rs : Reg) (rt : Reg) (s : State) : Out := .next (s.advance.setX rd (s.x rs + s.x rt))

/-- SUB (R125). -/
def execSub (rd : Reg) (rs : Reg) (rt : Reg) (s : State) : Out :=
  s.writeChecked (subOverflows (s.x rs) (s.x rt)) rd (s.x rs - s.x rt)

/-- SUBU (R126). -/
def execSubu (rd : Reg) (rs : Reg) (rt : Reg) (s : State) : Out := .next (s.advance.setX rd (s.x rs - s.x rt))

/-- AND (R127). -/
def execAnd (rd : Reg) (rs : Reg) (rt : Reg) (s : State) : Out :=
  .next (s.advance.setX rd (s.x rs &&& s.x rt))

/-- OR (R128). -/
def execOr (rd : Reg) (rs : Reg) (rt : Reg) (s : State) : Out := .next (s.advance.setX rd (s.x rs ||| s.x rt))

/-- XOR (R129). -/
def execXor (rd : Reg) (rs : Reg) (rt : Reg) (s : State) : Out :=
  .next (s.advance.setX rd (s.x rs ^^^ s.x rt))

/-- NOR (R130). -/
def execNor (rd : Reg) (rs : Reg) (rt : Reg) (s : State) : Out :=
  .next (s.advance.setX rd (~~~(s.x rs ||| s.x rt)))

/-! ## Compare, min and max -/

/-- SLT (R131). -/
def execSlt (rd : Reg) (rs : Reg) (rt : Reg) (s : State) : Out :=
  .next (s.advance.setX rd (boolWord ((s.x rs).slt (s.x rt))))

/-- SLTU (R132). -/
def execSltu (rd : Reg) (rs : Reg) (rt : Reg) (s : State) : Out :=
  .next (s.advance.setX rd (boolWord ((s.x rs).ult (s.x rt))))

/-- MAX (R133). -/
def execMax (rd : Reg) (rs : Reg) (rt : Reg) (s : State) : Out :=
  .next (s.advance.setX rd (if (s.x rt).slt (s.x rs) then s.x rs else s.x rt))

/-- MIN (R134). -/
def execMin (rd : Reg) (rs : Reg) (rt : Reg) (s : State) : Out :=
  .next (s.advance.setX rd (if (s.x rs).slt (s.x rt) then s.x rs else s.x rt))

/-! ## Bit-field and byte-shuffle instructions -/

/-- EXT (R135). -/
def execExt (rt : Reg) (rs : Reg) (pos : BitVec 5) (size : Nat) (s : State) : Out :=
  if 32 < pos.toNat + size then s.halt (.unpredictableOperand s.cpu.pc)
  else .next (s.advance.setX rt (extractField (s.x rs) pos.toNat size))

/-- INS (R136). -/
def execIns (rt : Reg) (rs : Reg) (pos : BitVec 5) (msb : BitVec 5) (s : State) : Out :=
  if msb.toNat < pos.toNat then s.halt (.unpredictableOperand s.cpu.pc)
  else .next (s.advance.setX rt (insertField (s.x rt) (s.x rs) pos.toNat (msb.toNat - pos.toNat + 1)))

/-- WSBH (R137). -/
def execWsbh (rd : Reg) (rt : Reg) (s : State) : Out := .next (s.advance.setX rd (swapInHalves (s.x rt)))

/-- WSBW (R138). -/
def execWsbw (rd : Reg) (rt : Reg) (s : State) : Out := .next (s.advance.setX rd (swapBytes (s.x rt)))

/-- SEB (R139). -/
def execSeb (rd : Reg) (rt : Reg) (s : State) : Out :=
  .next (s.advance.setX rd (((s.x rt).extractLsb' 0 8).signExtend 32))

/-- BITREV (R140). -/
def execBitrev (rd : Reg) (rt : Reg) (s : State) : Out := .next (s.advance.setX rd ((s.x rt).reverse))

/-- SEH (R141). -/
def execSeh (rd : Reg) (rt : Reg) (s : State) : Out :=
  .next (s.advance.setX rd (((s.x rt).extractLsb' 0 16).signExtend 32))

end Sys2Proof.Machine
end

