-- ==== Sys2Proof/Machine/AluImm.lean ====
section
/-! DEFINITION. Immediate ALU instructions (spec/42_alu_immediate.md). -/

namespace Sys2Proof.Machine

/-- ADDI (R142). -/
def execAddi (rt : Reg) (rs : Reg) (imm : BitVec 16) (s : State) : Out :=
  s.writeChecked (addOverflows (s.x rs) (simm imm)) rt (s.x rs + simm imm)

/-- ADDIU (R143). -/
def execAddiu (rt : Reg) (rs : Reg) (imm : BitVec 16) (s : State) : Out :=
  .next (s.advance.setX rt (s.x rs + simm imm))

/-- SLTI (R144). -/
def execSlti (rt : Reg) (rs : Reg) (imm : BitVec 16) (s : State) : Out :=
  .next (s.advance.setX rt (boolWord ((s.x rs).slt (simm imm))))

/-- SLTIU (R145). -/
def execSltiu (rt : Reg) (rs : Reg) (imm : BitVec 16) (s : State) : Out :=
  .next (s.advance.setX rt (boolWord ((s.x rs).ult (simm imm))))

/-- ANDI (R146). -/
def execAndi (rt : Reg) (rs : Reg) (imm : BitVec 16) (s : State) : Out :=
  .next (s.advance.setX rt (s.x rs &&& zimm imm))

/-- ORI (R147). -/
def execOri (rt : Reg) (rs : Reg) (imm : BitVec 16) (s : State) : Out :=
  .next (s.advance.setX rt (s.x rs ||| zimm imm))

/-- XORI (R148). -/
def execXori (rt : Reg) (rs : Reg) (imm : BitVec 16) (s : State) : Out :=
  .next (s.advance.setX rt (s.x rs ^^^ zimm imm))

/-- LUI (R149). -/
def execLui (rt : Reg) (imm : BitVec 16) (s : State) : Out := .next (s.advance.setX rt (uimm imm))

end Sys2Proof.Machine
end

