-- ==== Sys2Proof/Machine/Branch.lean ====
section
/-! DEFINITION. Branch and jump instructions (spec/45_branch_jump.md). Every one halts in a delay slot before it reads an operand (R190);
every operand is read before the link is written (R192). -/

namespace Sys2Proof.Machine

/-! ## Conditional branches -/

/-- BEQ (R195). -/
def execBeq (rs : Reg) (rt : Reg) (offset : BitVec 16) (s : State) : Out :=
  s.controlTransfer (s.advance.branchIf (decide (s.x rs = s.x rt)) (s.branchTarget offset))

/-- BNE (R196). -/
def execBne (rs : Reg) (rt : Reg) (offset : BitVec 16) (s : State) : Out :=
  s.controlTransfer (s.advance.branchIf (decide (s.x rs ≠ s.x rt)) (s.branchTarget offset))

/-- BLEZ (R197). -/
def execBlez (rs : Reg) (offset : BitVec 16) (s : State) : Out :=
  s.controlTransfer (s.advance.branchIf (decide ((s.x rs).toInt ≤ 0)) (s.branchTarget offset))

/-- BGTZ (R198). -/
def execBgtz (rs : Reg) (offset : BitVec 16) (s : State) : Out :=
  s.controlTransfer (s.advance.branchIf (decide (0 < (s.x rs).toInt)) (s.branchTarget offset))

/-! ## Likely forms -/

/-- BEQL (R199). -/
def execBeql (rs : Reg) (rt : Reg) (offset : BitVec 16) (s : State) : Out :=
  s.controlTransfer (s.advance.branchLikelyIf (decide (s.x rs = s.x rt)) (s.branchTarget offset))

/-- BNEL (R200). -/
def execBnel (rs : Reg) (rt : Reg) (offset : BitVec 16) (s : State) : Out :=
  s.controlTransfer (s.advance.branchLikelyIf (decide (s.x rs ≠ s.x rt)) (s.branchTarget offset))

/-- BLEZL (R201). -/
def execBlezl (rs : Reg) (offset : BitVec 16) (s : State) : Out :=
  s.controlTransfer (s.advance.branchLikelyIf (decide ((s.x rs).toInt ≤ 0)) (s.branchTarget offset))

/-- BGTZL (R202). -/
def execBgtzl (rs : Reg) (offset : BitVec 16) (s : State) : Out :=
  s.controlTransfer (s.advance.branchLikelyIf (decide (0 < (s.x rs).toInt)) (s.branchTarget offset))

/-! ## REGIMM branches -/

/-- BLTZ (R203). -/
def execBltz (rs : Reg) (offset : BitVec 16) (s : State) : Out :=
  s.controlTransfer (s.advance.branchIf (decide ((s.x rs).toInt < 0)) (s.branchTarget offset))

/-- BGEZ (R204). -/
def execBgez (rs : Reg) (offset : BitVec 16) (s : State) : Out :=
  s.controlTransfer (s.advance.branchIf (decide (0 ≤ (s.x rs).toInt)) (s.branchTarget offset))

/-- BLTZL (R205). -/
def execBltzl (rs : Reg) (offset : BitVec 16) (s : State) : Out :=
  s.controlTransfer (s.advance.branchLikelyIf (decide ((s.x rs).toInt < 0)) (s.branchTarget offset))

/-- BGEZL (R206). -/
def execBgezl (rs : Reg) (offset : BitVec 16) (s : State) : Out :=
  s.controlTransfer (s.advance.branchLikelyIf (decide (0 ≤ (s.x rs).toInt)) (s.branchTarget offset))

/-- BLTZAL (R207). -/
def execBltzal (rs : Reg) (offset : BitVec 16) (s : State) : Out :=
  s.controlTransfer ((s.advance.setX 31#5 s.link).branchIf (decide ((s.x rs).toInt < 0)) (s.branchTarget offset))

/-- BGEZAL (R208). -/
def execBgezal (rs : Reg) (offset : BitVec 16) (s : State) : Out :=
  s.controlTransfer ((s.advance.setX 31#5 s.link).branchIf (decide (0 ≤ (s.x rs).toInt)) (s.branchTarget offset))

/-- BLTZALL (R209). -/
def execBltzall (rs : Reg) (offset : BitVec 16) (s : State) : Out :=
  s.controlTransfer ((s.advance.setX 31#5 s.link).branchLikelyIf (decide ((s.x rs).toInt < 0)) (s.branchTarget offset))

/-- BGEZALL (R210). -/
def execBgezall (rs : Reg) (offset : BitVec 16) (s : State) : Out :=
  s.controlTransfer ((s.advance.setX 31#5 s.link).branchLikelyIf (decide (0 ≤ (s.x rs).toInt)) (s.branchTarget offset))

/-! ## Jumps -/

/-- J (R211). -/
def execJ (target : BitVec 26) (s : State) : Out :=
  s.controlTransfer (s.advance.branchTo (s.jumpTarget target))

/-- JAL (R212). -/
def execJal (target : BitVec 26) (s : State) : Out :=
  s.controlTransfer ((s.advance.setX 31#5 s.link).branchTo (s.jumpTarget target))

/-- JR (R213). -/
def execJr (rs : Reg) (s : State) : Out := s.controlTransfer (s.advance.branchTo (s.x rs))

/-- JALR (R214). -/
def execJalr (rd : Reg) (rs : Reg) (s : State) : Out :=
  s.controlTransfer ((s.advance.setX rd s.link).branchTo (s.x rs))

end Sys2Proof.Machine
end

