-- ==== Sys2Proof/Machine/Fpu.lean ====
section
/-! DEFINITION. Floating-point coprocessor instructions (spec/46_fpu.md). -/

namespace Sys2Proof.Machine

/-- The result of one of the six instructions that `FP_ARITH` governs, numbered `op`, with operands `a` and `b` as `FP_FTZ`
reads them, for an arithmetic other than the reference: its result is flushed as `FP_FTZ` says (R215; notes/assumptions/35).
Under the reference `r` is the result, and `none` a NaN draw. -/
def State.writeFp (s : State) (op : Nat) (fd : FReg) (a b : Word) (r : Option Word) : State :=
  match s.par.fpArith with
  | .other => s.advance.setF fd (fpFlush s.par.fpFtz (Config.fpArith op a b))
  | .ieeeNearestEven =>
    match r with
    | some v => s.advance.setF fd v
    | none => (s.advance.setF fd (fpNan (Config.draw s.draws))).drew 1

/-- An operand's bits under `FP_FTZ` (R215). -/
def State.fBits (s : State) (r : FReg) : Word := fpFlush s.par.fpFtz (s.f r)

/-- The number an operand stands for under `FP_FTZ` (R215). -/
def State.fpIn (s : State) (r : FReg) : Fp := fpDecode (s.fBits r)

/-- `C <- c` after the pc advance (R241). -/
def State.writeC (s : State) (c : Bool) : State := s.advance.setFcr31 (fcrSetC s.cpu.fcr31 c)

/-! ## Moves between the integer unit and the FPU -/

/-- MFC1 (R216). -/
def execMfc1 (rt : Reg) (fs : FReg) (s : State) : Out := .next (s.advance.setX rt (s.f fs))

/-- MTC1 (R217). -/
def execMtc1 (rt : Reg) (fs : FReg) (s : State) : Out := .next (s.advance.setF fs (s.x rt))

/-- CFC1 (R218). -/
def execCfc1 (rt : Reg) (fs : BitVec 5) (s : State) : Out :=
  if fs = 31#5 then .next ((s.advance.setX rt (fcrRead s.cpu.fcr31 (Config.draw s.draws))).drew 1)
  else if fs = 0#5 then .next (s.advance.setX rt s.par.fcr0)
  else s.halt (.unsupportedFcr fs)

/-- CTC1 (R219). -/
def execCtc1 (rt : Reg) (fs : BitVec 5) (s : State) : Out :=
  if fs = 31#5 then .next (s.advance.setFcr31 (s.x rt)) else s.halt (.unsupportedFcr fs)

/-! ## Branches on the FPU condition -/

/-- BC1F (R220). -/
def execBc1f (offset : BitVec 16) (s : State) : Out :=
  s.controlTransfer (s.advance.branchIf (!fcrC s.cpu.fcr31) (s.branchTarget offset))

/-- BC1T (R221). -/
def execBc1t (offset : BitVec 16) (s : State) : Out :=
  s.controlTransfer (s.advance.branchIf (fcrC s.cpu.fcr31) (s.branchTarget offset))

/-- BC1FL (R222). -/
def execBc1fl (offset : BitVec 16) (s : State) : Out :=
  s.controlTransfer (s.advance.branchLikelyIf (!fcrC s.cpu.fcr31) (s.branchTarget offset))

/-- BC1TL (R223). -/
def execBc1tl (offset : BitVec 16) (s : State) : Out :=
  s.controlTransfer (s.advance.branchLikelyIf (fcrC s.cpu.fcr31) (s.branchTarget offset))

/-! ## Arithmetic -/

/-- ADD.S (R224). -/
def execAddS (fd : FReg) (fs : FReg) (ft : FReg) (s : State) : Out :=
  .next (s.writeFp 0 fd (s.fBits fs) (s.fBits ft) (fpAdd s.par.fpFtz (s.fpIn fs) (s.fpIn ft)))

/-- SUB.S (R225). -/
def execSubS (fd : FReg) (fs : FReg) (ft : FReg) (s : State) : Out :=
  .next (s.writeFp 1 fd (s.fBits fs) (s.fBits ft) (fpSub s.par.fpFtz (s.fpIn fs) (s.fpIn ft)))

/-- MUL.S (R226). -/
def execMulS (fd : FReg) (fs : FReg) (ft : FReg) (s : State) : Out :=
  .next (s.writeFp 2 fd (s.fBits fs) (s.fBits ft) (fpMul s.par.fpFtz (s.fpIn fs) (s.fpIn ft)))

/-- DIV.S (R227). -/
def execDivS (fd : FReg) (fs : FReg) (ft : FReg) (s : State) : Out :=
  .next (s.writeFp 3 fd (s.fBits fs) (s.fBits ft) (fpDiv s.par.fpFtz (s.fpIn fs) (s.fpIn ft)))

/-- SQRT.S (R228). -/
def execSqrtS (fd : FReg) (fs : FReg) (s : State) : Out :=
  .next (s.writeFp 4 fd (s.fBits fs) 0#32 (fpSqrt s.par.fpFtz (s.fpIn fs)))

/-- ABS.S (R229). -/
def execAbsS (fd : FReg) (fs : FReg) (s : State) : Out := .next (s.advance.setF fd (s.f fs &&& 0x7FFFFFFF#32))

/-- MOV.S (R230). -/
def execMovS (fd : FReg) (fs : FReg) (s : State) : Out := .next (s.advance.setF fd (s.f fs))

/-- NEG.S (R231). -/
def execNegS (fd : FReg) (fs : FReg) (s : State) : Out := .next (s.advance.setF fd (s.f fs ^^^ 0x80000000#32))

/-! ## Conversions -/

/-- CVT.S.W (R234). -/
def execCvtSW (fd : FReg) (fs : FReg) (s : State) : Out :=
  .next (s.writeFp 5 fd (s.f fs) 0#32 (some (fpOfInt (s.f fs).toInt)))

/-- ROUND.W.S (R235). -/
def execRoundWS (fd : FReg) (fs : FReg) (s : State) : Out :=
  .next (s.advance.setF fd (toWord s.par (s.f fs) .rn))

/-- CVT.W.S (R236). -/
def execCvtWS (fd : FReg) (fs : FReg) (s : State) : Out :=
  .next (s.advance.setF fd (toWord s.par (s.f fs) (roundModeOf (fcrRM s.cpu.fcr31))))

/-- TRUNC.W.S (R237). -/
def execTruncWS (fd : FReg) (fs : FReg) (s : State) : Out :=
  .next (s.advance.setF fd (toWord s.par (s.f fs) .rz))

/-- CEIL.W.S (R238). -/
def execCeilWS (fd : FReg) (fs : FReg) (s : State) : Out :=
  .next (s.advance.setF fd (toWord s.par (s.f fs) .rp))

/-- FLOOR.W.S (R239). -/
def execFloorWS (fd : FReg) (fs : FReg) (s : State) : Out :=
  .next (s.advance.setF fd (toWord s.par (s.f fs) .rm))

/-! ## Compares -/

/-- C.F.S (R242). -/
def execCF (fs : FReg) (ft : FReg) (s : State) : Out := .next (s.writeC (fpCondition 0#4 (s.f fs) (s.f ft)))

/-- C.UN.S (R243). -/
def execCUn (fs : FReg) (ft : FReg) (s : State) : Out := .next (s.writeC (fpCondition 1#4 (s.f fs) (s.f ft)))

/-- C.EQ.S (R244). -/
def execCEq (fs : FReg) (ft : FReg) (s : State) : Out := .next (s.writeC (fpCondition 2#4 (s.f fs) (s.f ft)))

/-- C.UEQ.S (R245). -/
def execCUeq (fs : FReg) (ft : FReg) (s : State) : Out := .next (s.writeC (fpCondition 3#4 (s.f fs) (s.f ft)))

/-- C.OLT.S (R246). -/
def execCOlt (fs : FReg) (ft : FReg) (s : State) : Out := .next (s.writeC (fpCondition 4#4 (s.f fs) (s.f ft)))

/-- C.ULT.S (R247). -/
def execCUlt (fs : FReg) (ft : FReg) (s : State) : Out := .next (s.writeC (fpCondition 5#4 (s.f fs) (s.f ft)))

/-- C.OLE.S (R248). -/
def execCOle (fs : FReg) (ft : FReg) (s : State) : Out := .next (s.writeC (fpCondition 6#4 (s.f fs) (s.f ft)))

/-- C.ULE.S (R249). -/
def execCUle (fs : FReg) (ft : FReg) (s : State) : Out := .next (s.writeC (fpCondition 7#4 (s.f fs) (s.f ft)))

/-- C.SF.S (R250). -/
def execCSf (fs : FReg) (ft : FReg) (s : State) : Out := .next (s.writeC (fpCondition 8#4 (s.f fs) (s.f ft)))

/-- C.NGLE.S (R251). -/
def execCNgle (fs : FReg) (ft : FReg) (s : State) : Out :=
  .next (s.writeC (fpCondition 9#4 (s.f fs) (s.f ft)))

/-- C.SEQ.S (R252). -/
def execCSeq (fs : FReg) (ft : FReg) (s : State) : Out :=
  .next (s.writeC (fpCondition 10#4 (s.f fs) (s.f ft)))

/-- C.NGL.S (R253). -/
def execCNgl (fs : FReg) (ft : FReg) (s : State) : Out :=
  .next (s.writeC (fpCondition 11#4 (s.f fs) (s.f ft)))

/-- C.LT.S (R254). -/
def execCLt (fs : FReg) (ft : FReg) (s : State) : Out := .next (s.writeC (fpCondition 12#4 (s.f fs) (s.f ft)))

/-- C.NGE.S (R255). -/
def execCNge (fs : FReg) (ft : FReg) (s : State) : Out :=
  .next (s.writeC (fpCondition 13#4 (s.f fs) (s.f ft)))

/-- C.LE.S (R256). -/
def execCLe (fs : FReg) (ft : FReg) (s : State) : Out := .next (s.writeC (fpCondition 14#4 (s.f fs) (s.f ft)))

/-- C.NGT.S (R257). -/
def execCNgt (fs : FReg) (ft : FReg) (s : State) : Out :=
  .next (s.writeC (fpCondition 15#4 (s.f fs) (s.f ft)))

end Sys2Proof.Machine
end

