-- ==== Sys2Proof/Machine/LoadStore.lean ====
section
/-! DEFINITION. Load and store instructions (spec/44_loadstore.md). -/

namespace Sys2Proof.Machine

/-! ## The merges of the unaligned group -/

/-- LWL's result from the old register, the aligned word and the lane (R177). -/
def mergeLeft (old word : Word) (lane : Nat) : Word :=
  (old &&& (0x00FFFFFF#32 >>> (8 * lane))) ||| (word <<< (24 - 8 * lane))

/-- LWR's result (R181). -/
def mergeRight (old word : Word) (lane : Nat) : Word :=
  (old &&& (0xFFFFFF00#32 <<< (24 - 8 * lane))) ||| (word >>> (8 * lane))

/-- SWL's `new` from the memory word, the register and the lane (R184). -/
def storeLeft (mem v : Word) (lane : Nat) : Word :=
  (mem &&& (0xFFFFFF00#32 <<< (8 * lane))) ||| (v >>> (24 - 8 * lane))

/-- SWR's `new` (R186). -/
def storeRight (mem v : Word) (lane : Nat) : Word :=
  (mem &&& (0x00FFFFFF#32 >>> (24 - 8 * lane))) ||| (v <<< (8 * lane))

/-- The bytes SWL writes from the aligned address up: `k = 0..lane` (R184). -/
def swlBytes (mem v : Word) (lane : Nat) : List Byte := (wordBytes (storeLeft mem v lane)).take (lane + 1)

/-- The bytes SWR writes from the effective address up: `k = lane..3` (R186). -/
def swrBytes (mem v : Word) (lane : Nat) : List Byte := (wordBytes (storeRight mem v lane)).drop lane

/-! ## Loads -/

/-- LB (R175). -/
def execLb (rt : Reg) (base : Reg) (offset : BitVec 16) (s : State) : Out :=
  s.orHalt (s.loadByte (s.ea base offset)) fun v => s.advance.setX rt (v.signExtend 32)

/-- LH (R176). -/
def execLh (rt : Reg) (base : Reg) (offset : BitVec 16) (s : State) : Out :=
  s.orHalt (s.loadHalf (s.ea base offset)) fun v => s.advance.setX rt (v.signExtend 32)

/-- LWL (R177). -/
def execLwl (rt : Reg) (base : Reg) (offset : BitVec 16) (s : State) : Out :=
  s.orHalt (s.loadWord (alignDown4 (s.ea base offset))) fun v =>
    s.advance.setX rt (mergeLeft (s.x rt) v (byteLane (s.ea base offset)))

/-- LW (R178). -/
def execLw (rt : Reg) (base : Reg) (offset : BitVec 16) (s : State) : Out :=
  s.orHalt (s.loadWord (s.ea base offset)) fun v => s.advance.setX rt (v)

/-- LBU (R179). -/
def execLbu (rt : Reg) (base : Reg) (offset : BitVec 16) (s : State) : Out :=
  s.orHalt (s.loadByte (s.ea base offset)) fun v => s.advance.setX rt (v.setWidth 32)

/-- LHU (R180). -/
def execLhu (rt : Reg) (base : Reg) (offset : BitVec 16) (s : State) : Out :=
  s.orHalt (s.loadHalf (s.ea base offset)) fun v => s.advance.setX rt (v.setWidth 32)

/-- LWR (R181). -/
def execLwr (rt : Reg) (base : Reg) (offset : BitVec 16) (s : State) : Out :=
  s.orHalt (s.loadWord (alignDown4 (s.ea base offset))) fun v =>
    s.advance.setX rt (mergeRight (s.x rt) v (byteLane (s.ea base offset)))

/-! ## Stores -/

/-- SB (R182). -/
def execSb (rt : Reg) (base : Reg) (offset : BitVec 16) (s : State) : Out :=
  s.orHalt (s.storeChecked (s.ea base offset) ([(s.x rt).extractLsb' 0 8])) fun t => t.advance

/-- SH (R183). -/
def execSh (rt : Reg) (base : Reg) (offset : BitVec 16) (s : State) : Out :=
  s.orHalt (s.storeChecked (s.ea base offset) (halfBytes ((s.x rt).extractLsb' 0 16))) fun t => t.advance

/-- SWL (R184). The bytes are stored at the translation of the aligned word, whose read is the one access that may halt; a
`TRANSLATE` that divides the word is settled so (notes/assumptions/44). -/
def execSwl (rt : Reg) (base : Reg) (offset : BitVec 16) (s : State) : Out :=
  s.orHalt (dataAddress s.par (alignDown4 (s.ea base offset)) 4) fun pa =>
    (s.storeBytes pa (swlBytes (Memory.word s.mem pa) (s.x rt) (byteLane (s.ea base offset)))).advance

/-- SW (R185). -/
def execSw (rt : Reg) (base : Reg) (offset : BitVec 16) (s : State) : Out :=
  s.orHalt (s.storeChecked (s.ea base offset) (wordBytes (s.x rt))) fun t => t.advance

/-- SWR (R186). The bytes are stored at the translation of the aligned word, as SWL's are (notes/assumptions/44). -/
def execSwr (rt : Reg) (base : Reg) (offset : BitVec 16) (s : State) : Out :=
  s.orHalt (dataAddress s.par (alignDown4 (s.ea base offset)) 4) fun pa =>
    (s.storeBytes (pa + byteLane (s.ea base offset))
      (swrBytes (Memory.word s.mem pa) (s.x rt) (byteLane (s.ea base offset)))).advance

/-! ## FPU loads and stores, and CACHE -/

/-- LWC1 (R187). -/
def execLwc1 (ft : FReg) (base : Reg) (offset : BitVec 16) (s : State) : Out :=
  s.orHalt (s.loadWord (s.ea base offset)) fun v => s.advance.setF ft v

/-- SWC1 (R188). -/
def execSwc1 (ft : FReg) (base : Reg) (offset : BitVec 16) (s : State) : Out :=
  s.orHalt (s.storeChecked (s.ea base offset) (wordBytes (s.f ft))) fun t => t.advance

/-- CACHE (R189): no effect beyond the pc advance; the effective address is not computed. -/
def execCache (_op : BitVec 5) (_base : Reg) (_offset : BitVec 16) (s : State) : Out := .next s.advance

end Sys2Proof.Machine
end

