-- ==== Sys2Proof/Machine/MulDiv.lean ====
section
/-! DEFINITION. Multiply, divide and HI/LO instructions (spec/43_muldiv.md). -/

namespace Sys2Proof.Machine

/-- `s64(a) * s64(b)` modulo 2^64. -/
def mulSigned (a b : Word) : DWord := a.signExtend 64 * b.signExtend 64

/-- `u64(a) * u64(b)` modulo 2^64. -/
def mulUnsigned (a b : Word) : DWord := a.setWidth 64 * b.setWidth 64

/-- (HI, LO) of DIV (R160). -/
def divSigned (a b : Word) : Word × Word :=
  if b = 0#32 then (a, if 0 ≤ a.toInt then 0xFFFFFFFF#32 else 1#32)
  else if a = intMin ∧ b = 0xFFFFFFFF#32 then (0#32, intMin)
  else (BitVec.ofInt 32 (a.toInt.tmod b.toInt), BitVec.ofInt 32 (a.toInt.tdiv b.toInt))

/-- `DIVU_BY_ZERO` (R161). -/
def divuByZero (p : Params) (a : Word) : Word × Word :=
  match p.divuByZero with
  | .reference => (a, 0xFFFFFFFF#32)
  | .halfword => (a, if a.toNat ≤ 0xFFFF then 0x0000FFFF#32 else 0xFFFFFFFF#32)
  | .free => Config.divuByZero a

/-- (HI, LO) of DIVU (R161). -/
def divUnsigned (p : Params) (a b : Word) : Word × Word :=
  if b = 0#32 then divuByZero p a else (BitVec.ofNat 32 (a.toNat % b.toNat), BitVec.ofNat 32 (a.toNat / b.toNat))

/-- MFHI (R150). -/
def execMfhi (rd : Reg) (s : State) : Out := .next (s.advance.setX rd (s.cpu.hi))

/-- MTHI (R151). -/
def execMthi (rs : Reg) (s : State) : Out := .next (s.advance.setHiLo (s.x rs) s.cpu.lo)

/-- MFLO (R152). -/
def execMflo (rd : Reg) (s : State) : Out := .next (s.advance.setX rd (s.cpu.lo))

/-- MTLO (R153). -/
def execMtlo (rs : Reg) (s : State) : Out := .next (s.advance.setHiLo s.cpu.hi (s.x rs))

/-- MULT (R154). -/
def execMult (rs : Reg) (rt : Reg) (s : State) : Out := .next (s.advance.setAcc (mulSigned (s.x rs) (s.x rt)))

/-- MULTU (R155). -/
def execMultu (rs : Reg) (rt : Reg) (s : State) : Out :=
  .next (s.advance.setAcc (mulUnsigned (s.x rs) (s.x rt)))

/-- MADD (R156). -/
def execMadd (rs : Reg) (rt : Reg) (s : State) : Out :=
  .next (s.advance.setAcc (s.hilo + mulSigned (s.x rs) (s.x rt)))

/-- MADDU (R157). -/
def execMaddu (rs : Reg) (rt : Reg) (s : State) : Out :=
  .next (s.advance.setAcc (s.hilo + mulUnsigned (s.x rs) (s.x rt)))

/-- MSUB (R158). -/
def execMsub (rs : Reg) (rt : Reg) (s : State) : Out :=
  .next (s.advance.setAcc (s.hilo - mulSigned (s.x rs) (s.x rt)))

/-- MSUBU (R159). -/
def execMsubu (rs : Reg) (rt : Reg) (s : State) : Out :=
  .next (s.advance.setAcc (s.hilo - mulUnsigned (s.x rs) (s.x rt)))

/-- DIV (R160). -/
def execDiv (rs : Reg) (rt : Reg) (s : State) : Out :=
  .next (s.advance.setHiLo (divSigned (s.x rs) (s.x rt)).1 (divSigned (s.x rs) (s.x rt)).2)

/-- DIVU (R161). -/
def execDivu (rs : Reg) (rt : Reg) (s : State) : Out :=
  .next (s.advance.setHiLo (divUnsigned s.par (s.x rs) (s.x rt)).1 (divUnsigned s.par (s.x rs) (s.x rt)).2)

end Sys2Proof.Machine
end

