-- ==== Sys2Proof/Machine/SystemGroup.lean ====
section
/-! DEFINITION. System instructions and the refused groups (spec/47_system.md). SYSCALL enters the host (R286); BREAK's effect is the halt
(R259, R282). A refused group changes nothing beyond the pc advance (R261). -/

namespace Sys2Proof.Machine

/-- SYSCALL (R258). -/
def execSyscall (code : BitVec 20) (s : State) : Out := .next (s.advance.enterHost (.hleCall code))

/-- BREAK (R259). -/
def execBrk (code : BitVec 20) (s : State) : Out := s.halt (.break_ code s.cpu.pc)

/-- SYNC (R260): no effect beyond the pc advance. -/
def execSync (_stype : BitVec 5) (s : State) : Out := .next s.advance

/-! ## Refused groups -/

/-- COP0 (R262). -/
def execCop0 (w : Word) (s : State) : Out := s.refuse .cop0 w

/-- COP2 (R263). -/
def execCop2 (w : Word) (s : State) : Out := s.refuse .cop2 w

/-- SPECIAL2 (R264). -/
def execSpecial2 (w : Word) (s : State) : Out := s.refuse .special2 w

/-- VFPU0 (R265). -/
def execVfpu0 (w : Word) (s : State) : Out := s.refuse .vfpu0 w

/-- VFPU1 (R266). -/
def execVfpu1 (w : Word) (s : State) : Out := s.refuse .vfpu1 w

/-- VFPU3 (R267). -/
def execVfpu3 (w : Word) (s : State) : Out := s.refuse .vfpu3 w

/-- LV.S (R268). -/
def execLvS (w : Word) (s : State) : Out := s.refuse .lvS w

/-- VFPU4 (R269). -/
def execVfpu4 (w : Word) (s : State) : Out := s.refuse .vfpu4 w

/-- LVL.Q / LVR.Q (R270). -/
def execLvlrQ (w : Word) (s : State) : Out := s.refuse .lvlrQ w

/-- LV.Q (R271). -/
def execLvQ (w : Word) (s : State) : Out := s.refuse .lvQ w

/-- VFPU5 (R272). -/
def execVfpu5 (w : Word) (s : State) : Out := s.refuse .vfpu5 w

/-- SV.S (R273). -/
def execSvS (w : Word) (s : State) : Out := s.refuse .svS w

/-- VFPU6 (R274). -/
def execVfpu6 (w : Word) (s : State) : Out := s.refuse .vfpu6 w

/-- SVL.Q / SVR.Q (R275). -/
def execSvlrQ (w : Word) (s : State) : Out := s.refuse .svlrQ w

/-- SV.Q (R276). -/
def execSvQ (w : Word) (s : State) : Out := s.refuse .svQ w

/-- VFPU7 (R277). -/
def execVfpu7 (w : Word) (s : State) : Out := s.refuse .vfpu7 w

/-- LL (R278). -/
def execLl (w : Word) (s : State) : Out := s.refuse .ll w

/-- SC (R279). -/
def execSc (w : Word) (s : State) : Out := s.refuse .sc w

end Sys2Proof.Machine
end

