-- ==== Sys2Proof/Machine/Dispatch.lean ====
section
/-! DEFINITION. The dispatch: the meaning of every instruction, on the state before the pc advance of R25. -/

namespace Sys2Proof.Machine

/-- The effect of instruction `i` at `A = s.cpu.pc`. -/
def exec (i : Instr) (s : State) : Host.Outcome State Fault Refusal :=
  match i with
  | .sll rd rt sa => Sys2Proof.Machine.execSll rd rt sa s
  | .srl rd rt sa => Sys2Proof.Machine.execSrl rd rt sa s
  | .rotr rd rt sa => Sys2Proof.Machine.execRotr rd rt sa s
  | .sra rd rt sa => Sys2Proof.Machine.execSra rd rt sa s
  | .sllv rd rt rs => Sys2Proof.Machine.execSllv rd rt rs s
  | .srlv rd rt rs => Sys2Proof.Machine.execSrlv rd rt rs s
  | .rotrv rd rt rs => Sys2Proof.Machine.execRotrv rd rt rs s
  | .srav rd rt rs => Sys2Proof.Machine.execSrav rd rt rs s
  | .movz rd rs rt => Sys2Proof.Machine.execMovz rd rs rt s
  | .movn rd rs rt => Sys2Proof.Machine.execMovn rd rs rt s
  | .clz rd rs => Sys2Proof.Machine.execClz rd rs s
  | .clo rd rs => Sys2Proof.Machine.execClo rd rs s
  | .add rd rs rt => Sys2Proof.Machine.execAdd rd rs rt s
  | .addu rd rs rt => Sys2Proof.Machine.execAddu rd rs rt s
  | .sub rd rs rt => Sys2Proof.Machine.execSub rd rs rt s
  | .subu rd rs rt => Sys2Proof.Machine.execSubu rd rs rt s
  | .and rd rs rt => Sys2Proof.Machine.execAnd rd rs rt s
  | .or rd rs rt => Sys2Proof.Machine.execOr rd rs rt s
  | .xor rd rs rt => Sys2Proof.Machine.execXor rd rs rt s
  | .nor rd rs rt => Sys2Proof.Machine.execNor rd rs rt s
  | .slt rd rs rt => Sys2Proof.Machine.execSlt rd rs rt s
  | .sltu rd rs rt => Sys2Proof.Machine.execSltu rd rs rt s
  | .max rd rs rt => Sys2Proof.Machine.execMax rd rs rt s
  | .min rd rs rt => Sys2Proof.Machine.execMin rd rs rt s
  | .ext rt rs pos size => Sys2Proof.Machine.execExt rt rs pos size s
  | .ins rt rs pos msb => Sys2Proof.Machine.execIns rt rs pos msb s
  | .wsbh rd rt => Sys2Proof.Machine.execWsbh rd rt s
  | .wsbw rd rt => Sys2Proof.Machine.execWsbw rd rt s
  | .seb rd rt => Sys2Proof.Machine.execSeb rd rt s
  | .bitrev rd rt => Sys2Proof.Machine.execBitrev rd rt s
  | .seh rd rt => Sys2Proof.Machine.execSeh rd rt s
  | .addi rt rs imm => Sys2Proof.Machine.execAddi rt rs imm s
  | .addiu rt rs imm => Sys2Proof.Machine.execAddiu rt rs imm s
  | .slti rt rs imm => Sys2Proof.Machine.execSlti rt rs imm s
  | .sltiu rt rs imm => Sys2Proof.Machine.execSltiu rt rs imm s
  | .andi rt rs imm => Sys2Proof.Machine.execAndi rt rs imm s
  | .ori rt rs imm => Sys2Proof.Machine.execOri rt rs imm s
  | .xori rt rs imm => Sys2Proof.Machine.execXori rt rs imm s
  | .lui rt imm => Sys2Proof.Machine.execLui rt imm s
  | .mfhi rd => Sys2Proof.Machine.execMfhi rd s
  | .mthi rs => Sys2Proof.Machine.execMthi rs s
  | .mflo rd => Sys2Proof.Machine.execMflo rd s
  | .mtlo rs => Sys2Proof.Machine.execMtlo rs s
  | .mult rs rt => Sys2Proof.Machine.execMult rs rt s
  | .multu rs rt => Sys2Proof.Machine.execMultu rs rt s
  | .madd rs rt => Sys2Proof.Machine.execMadd rs rt s
  | .maddu rs rt => Sys2Proof.Machine.execMaddu rs rt s
  | .msub rs rt => Sys2Proof.Machine.execMsub rs rt s
  | .msubu rs rt => Sys2Proof.Machine.execMsubu rs rt s
  | .div rs rt => Sys2Proof.Machine.execDiv rs rt s
  | .divu rs rt => Sys2Proof.Machine.execDivu rs rt s
  | .lb rt base offset => Sys2Proof.Machine.execLb rt base offset s
  | .lh rt base offset => Sys2Proof.Machine.execLh rt base offset s
  | .lwl rt base offset => Sys2Proof.Machine.execLwl rt base offset s
  | .lw rt base offset => Sys2Proof.Machine.execLw rt base offset s
  | .lbu rt base offset => Sys2Proof.Machine.execLbu rt base offset s
  | .lhu rt base offset => Sys2Proof.Machine.execLhu rt base offset s
  | .lwr rt base offset => Sys2Proof.Machine.execLwr rt base offset s
  | .sb rt base offset => Sys2Proof.Machine.execSb rt base offset s
  | .sh rt base offset => Sys2Proof.Machine.execSh rt base offset s
  | .swl rt base offset => Sys2Proof.Machine.execSwl rt base offset s
  | .sw rt base offset => Sys2Proof.Machine.execSw rt base offset s
  | .swr rt base offset => Sys2Proof.Machine.execSwr rt base offset s
  | .lwc1 ft base offset => Sys2Proof.Machine.execLwc1 ft base offset s
  | .swc1 ft base offset => Sys2Proof.Machine.execSwc1 ft base offset s
  | .cache op base offset => Sys2Proof.Machine.execCache op base offset s
  | .beq rs rt offset => Sys2Proof.Machine.execBeq rs rt offset s
  | .bne rs rt offset => Sys2Proof.Machine.execBne rs rt offset s
  | .blez rs offset => Sys2Proof.Machine.execBlez rs offset s
  | .bgtz rs offset => Sys2Proof.Machine.execBgtz rs offset s
  | .beql rs rt offset => Sys2Proof.Machine.execBeql rs rt offset s
  | .bnel rs rt offset => Sys2Proof.Machine.execBnel rs rt offset s
  | .blezl rs offset => Sys2Proof.Machine.execBlezl rs offset s
  | .bgtzl rs offset => Sys2Proof.Machine.execBgtzl rs offset s
  | .bltz rs offset => Sys2Proof.Machine.execBltz rs offset s
  | .bgez rs offset => Sys2Proof.Machine.execBgez rs offset s
  | .bltzl rs offset => Sys2Proof.Machine.execBltzl rs offset s
  | .bgezl rs offset => Sys2Proof.Machine.execBgezl rs offset s
  | .bltzal rs offset => Sys2Proof.Machine.execBltzal rs offset s
  | .bgezal rs offset => Sys2Proof.Machine.execBgezal rs offset s
  | .bltzall rs offset => Sys2Proof.Machine.execBltzall rs offset s
  | .bgezall rs offset => Sys2Proof.Machine.execBgezall rs offset s
  | .j target => Sys2Proof.Machine.execJ target s
  | .jal target => Sys2Proof.Machine.execJal target s
  | .jr rs => Sys2Proof.Machine.execJr rs s
  | .jalr rd rs => Sys2Proof.Machine.execJalr rd rs s
  | .mfc1 rt fs => Sys2Proof.Machine.execMfc1 rt fs s
  | .mtc1 rt fs => Sys2Proof.Machine.execMtc1 rt fs s
  | .cfc1 rt fs => Sys2Proof.Machine.execCfc1 rt fs s
  | .ctc1 rt fs => Sys2Proof.Machine.execCtc1 rt fs s
  | .bc1f offset => Sys2Proof.Machine.execBc1f offset s
  | .bc1t offset => Sys2Proof.Machine.execBc1t offset s
  | .bc1fl offset => Sys2Proof.Machine.execBc1fl offset s
  | .bc1tl offset => Sys2Proof.Machine.execBc1tl offset s
  | .addS fd fs ft => Sys2Proof.Machine.execAddS fd fs ft s
  | .subS fd fs ft => Sys2Proof.Machine.execSubS fd fs ft s
  | .mulS fd fs ft => Sys2Proof.Machine.execMulS fd fs ft s
  | .divS fd fs ft => Sys2Proof.Machine.execDivS fd fs ft s
  | .sqrtS fd fs => Sys2Proof.Machine.execSqrtS fd fs s
  | .absS fd fs => Sys2Proof.Machine.execAbsS fd fs s
  | .movS fd fs => Sys2Proof.Machine.execMovS fd fs s
  | .negS fd fs => Sys2Proof.Machine.execNegS fd fs s
  | .cvtSW fd fs => Sys2Proof.Machine.execCvtSW fd fs s
  | .roundWS fd fs => Sys2Proof.Machine.execRoundWS fd fs s
  | .cvtWS fd fs => Sys2Proof.Machine.execCvtWS fd fs s
  | .truncWS fd fs => Sys2Proof.Machine.execTruncWS fd fs s
  | .ceilWS fd fs => Sys2Proof.Machine.execCeilWS fd fs s
  | .floorWS fd fs => Sys2Proof.Machine.execFloorWS fd fs s
  | .cF fs ft => Sys2Proof.Machine.execCF fs ft s
  | .cUn fs ft => Sys2Proof.Machine.execCUn fs ft s
  | .cEq fs ft => Sys2Proof.Machine.execCEq fs ft s
  | .cUeq fs ft => Sys2Proof.Machine.execCUeq fs ft s
  | .cOlt fs ft => Sys2Proof.Machine.execCOlt fs ft s
  | .cUlt fs ft => Sys2Proof.Machine.execCUlt fs ft s
  | .cOle fs ft => Sys2Proof.Machine.execCOle fs ft s
  | .cUle fs ft => Sys2Proof.Machine.execCUle fs ft s
  | .cSf fs ft => Sys2Proof.Machine.execCSf fs ft s
  | .cNgle fs ft => Sys2Proof.Machine.execCNgle fs ft s
  | .cSeq fs ft => Sys2Proof.Machine.execCSeq fs ft s
  | .cNgl fs ft => Sys2Proof.Machine.execCNgl fs ft s
  | .cLt fs ft => Sys2Proof.Machine.execCLt fs ft s
  | .cNge fs ft => Sys2Proof.Machine.execCNge fs ft s
  | .cLe fs ft => Sys2Proof.Machine.execCLe fs ft s
  | .cNgt fs ft => Sys2Proof.Machine.execCNgt fs ft s
  | .syscall code => Sys2Proof.Machine.execSyscall code s
  | .brk code => Sys2Proof.Machine.execBrk code s
  | .sync stype => Sys2Proof.Machine.execSync stype s
  | .cop0 w => Sys2Proof.Machine.execCop0 w s
  | .cop2 w => Sys2Proof.Machine.execCop2 w s
  | .special2 w => Sys2Proof.Machine.execSpecial2 w s
  | .vfpu0 w => Sys2Proof.Machine.execVfpu0 w s
  | .vfpu1 w => Sys2Proof.Machine.execVfpu1 w s
  | .vfpu3 w => Sys2Proof.Machine.execVfpu3 w s
  | .lvS w => Sys2Proof.Machine.execLvS w s
  | .vfpu4 w => Sys2Proof.Machine.execVfpu4 w s
  | .lvlrQ w => Sys2Proof.Machine.execLvlrQ w s
  | .lvQ w => Sys2Proof.Machine.execLvQ w s
  | .vfpu5 w => Sys2Proof.Machine.execVfpu5 w s
  | .svS w => Sys2Proof.Machine.execSvS w s
  | .vfpu6 w => Sys2Proof.Machine.execVfpu6 w s
  | .svlrQ w => Sys2Proof.Machine.execSvlrQ w s
  | .svQ w => Sys2Proof.Machine.execSvQ w s
  | .vfpu7 w => Sys2Proof.Machine.execVfpu7 w s
  | .ll w => Sys2Proof.Machine.execLl w s
  | .sc w => Sys2Proof.Machine.execSc w s

end Sys2Proof.Machine
end

