-- ==== Sys2Proof/Machine/Step.lean ====
section
/-! DEFINITION. One step of the machine: an instruction (spec/10_state.md rule R25), a host action (spec/60_exceptions.md
rules R286, R290), one GPU command (spec/62_gpu_pipeline.md rule R356), an advance of the event queue (R298) or the boot
(R404). -/

namespace Sys2Proof.Machine

/-- The end of an instruction step (R25, R282): the cycle charge, unless the instruction halted. -/
def State.finishStep (s : State) : State :=
  match s.run with
  | .halted _ => s
  | _ => { s with cycles := s.cycles + s.par.cpi }

/-- The outcome of an instruction, with the end of its step. -/
def finishOutcome (o : Out) : Out :=
  match o with
  | .next s => .next s.finishStep
  | .fault r => .fault r
  | .refused r => .refused r

/-- A step of the running CPU (R25, R284). -/
def State.cpuStep (s : State) : Out :=
  if s.cpu.pc = s.par.callbackReturnAddr then
    if s.kernel.callbackInFlight then .next (s.enterHost .callbackReturn) else s.halt (.strayCallbackReturn s.cpu.pc)
  else match s.fetch s.cpu.pc with
    | .error h => .next (s.haltHere h)
    | .ok w =>
      match decode w with
      | .error _ => s.halt (.unrecognizedOpcode w s.cpu.pc)
      | .ok i => finishOutcome (exec i s)

/-- The event that is due, or `t` where none is (R298). -/
def State.orDue (s t : State) : State :=
  match s.dueEvent with
  | some e => s.fireEvent e
  | none => t

/-- A step while the CPU waits `InHost`: the host action (R286, R290), after the events that are due; one command of the display lists
that a host action runs (R356); or the rest of the script that ran them. -/
def State.hostStep (s : State) (e : HostEvent) : State :=
  match e with
  | .hleCall code => s.orDue (s.hostCall code)
  | .callbackReturn => s.orDue s.callbackReturn
  | .geLists rest => s.geStep rest
  | .script rest => s.scriptStep rest

/-- A step of the running CPU, or what comes before it (R298): the event that is due, or the `Reschedule()` that an event has
requested. -/
def State.runStep (s : State) : Out :=
  match s.dueEvent with
  | some e => .next (s.fireEvent e)
  | none => if s.kernel.reschedRequested then .next (s.reschedule false) else s.cpuStep

/-- A step while the CPU does not step and nothing is to be loaded: an event that is due, a `Reschedule()` that was requested, or
the advance of time to the next event (R291, R298). When the run has ended (R296), or nothing can wake a thread, the state stays
as it is (notes/assumptions/24). -/
def State.idleStep (s : State) : State :=
  if s.kernel.closing then s
  else s.orDue (
    if s.kernel.reschedRequested then s.reschedule false
    else match firstEvent s.kernel.events with
      | none => s
      | some e => { s with cycles := max s.cycles e.due })

/-- One step. A machine that has halted or refused never leaves that state (R37, R295). Between the steps of the CPU, host calls
and callback returns, every event that is due fires, one in a step, before the next of them begins (R298); a host action that runs
display lists is one action, and no event falls between its commands (R344; notes/assumptions/9). -/
def step (s : State) : Host.Outcome State Fault Refusal :=
  match s.run with
  | .halted r => .fault (.halted r)
  | .refused g w a => .refused (.refusedGroup g w a s)
  | .inHost e => .next (s.hostStep e)
  | .running => s.runStep
  | .notStepping =>
    match s.loader with
    | none => .next s.idleStep
    | some img =>
      match s.boot img with
      | none => .refused .loadFailed
      | some t => .next t

/-! ## Placing an instruction -/

/-- Nothing comes before the next instruction: no event is due and no `Reschedule()` is requested (R298). -/
def State.quiet (s : State) : Bool := s.dueEvent.isNone && !s.kernel.reschedRequested

/-- The machine with the events that are due already fired, as far as the next fetch needs: the events due go, and nothing is
requested. -/
def State.hush (s : State) : State :=
  s.withKernel fun k =>
    { k with events := k.events.filter fun e => decide (s.cycles < e.due), reschedRequested := false }

/-- The machine fetches its next instruction at its pc. -/
def State.fetchReady (s : State) : Bool :=
  decide (s.run = .running) && decide (s.cpu.pc ≠ s.par.callbackReturnAddr) && s.cpu.pc.extractLsb' 0 2 == 0#2 &&
    (translate s.par s.cpu.pc).isSome

/-- Where a program is placed when the machine does not fetch: the user partition (R58), off the callback return address. -/
def programBase (p : Params) : Word := if p.callbackReturnAddr = 0x08804000#32 then 0x08804010#32 else 0x08804000#32

/-- The machine as it is once a thread is switched in at an address where a program is placed (notes/assumptions/12). -/
def State.readyToFetch (s : State) : State :=
  let s := if s.quiet then s else s.hush
  if s.fetchReady then s
  else { s with run := .running, cpu := s.cpu.jumpTo (programBase s.par) }

/-- `s` with the instruction word `w` (its low `nbits` bits, the others 0) where the next step fetches. -/
def State.withFetchWord (s : State) (nbits w : Nat) : State :=
  let t := s.readyToFetch
  match translate t.par t.cpu.pc with
  | none => t
  | some pa => { t with mem := Memory.writeList t.mem pa (wordBytes (BitVec.ofNat 32 (w % 2 ^ nbits))) }

end Sys2Proof.Machine
end

