-- ==== Sys2Proof/Machine/Debug.lean ====
section
/-! DEFINITION. The debugger's access interface (spec/60_exceptions.md rule R302). The debugger is an agent outside the machine:
it acts between CPU steps, adds no state, and `step` never calls these operations. -/

namespace Sys2Proof.Machine

/-- The registers the interface reads and writes (R302; which ones the source does not list, notes/assumptions/38). -/
inductive DebugReg where
  | gpr (r : Reg)
  | hi
  | lo
  | pc
  | fpr (r : FReg)
  | fcr31
  deriving DecidableEq, Repr

/-- Register read. -/
def State.debugRead (s : State) (r : DebugReg) : Word :=
  match r with
  | .gpr r => s.x r
  | .hi => s.cpu.hi
  | .lo => s.cpu.lo
  | .pc => s.cpu.pc
  | .fpr r => s.f r
  | .fcr31 => s.cpu.fcr31

/-- Register write, through `SetRegister`: a write to register 0 is dropped (R21). A write of pc leaves straight-line code there:
`next_pc = pc + 4` and `ds = false` (notes/assumptions/38). -/
def State.debugWrite (s : State) (r : DebugReg) (v : Word) : State :=
  match r with
  | .gpr r => s.setX r v
  | .hi => s.setHiLo v s.cpu.lo
  | .lo => s.setHiLo s.cpu.hi v
  | .pc => { s with cpu := s.cpu.jumpTo v }
  | .fpr r => s.setF r v
  | .fcr31 => s.setFcr31 v

/-- Memory read of one byte, `none` where nothing is mapped. There is no memory write (R302). -/
def State.debugByte (s : State) (a : Word) : Option Byte :=
  match translate s.par a with
  | none => none
  | some pa => some (Memory.read s.mem pa)

/-- The next step of the machine is a CPU step (R25): the CPU is Running, and no event and no `Reschedule()` comes first
(R298). -/
def State.atCpuStep (s : State) : Bool := decide (s.run = .running) && s.quiet

/-- The CPU is Running, or the action of an event that fired while it was Running runs display lists (R355), after which it is Running
again. -/
def State.betweenCpuSteps (s : State) : Bool :=
  match s.run with
  | .running => true
  | .inHost (.geLists (some f)) => f.origin == .event .running
  | .inHost (.script f) => f.origin == .event .running
  | _ => false

/-- Single-step: exactly one step of R25, which there is only while the CPU is Running (R25, R37; notes/assumptions/38). The events
that are due and the `Reschedule()` they request, which come before the next CPU step (R298), come first, at most `n` steps of the
machine. -/
def State.debugStep : Nat → State → Out
  | 0, s => if s.atCpuStep then s.cpuStep else .next s
  | n + 1, s =>
    if s.atCpuStep then s.cpuStep
    else if s.betweenCpuSteps then
      match step s with
      | .next s' => State.debugStep n s'
      | .fault r => .fault r
      | .refused r => .refused r
    else .next s

/-- The debugger's own state: the set of breakpoints. It is no state of the machine (R302). -/
structure Debugger where
  breakpoints : List Word
  deriving DecidableEq, Repr

/-- Breakpoint add. -/
def Debugger.add (d : Debugger) (a : Word) : Debugger :=
  if d.breakpoints.contains a then d else { breakpoints := a :: d.breakpoints }

/-- Breakpoint remove; no effect where there is none. -/
def Debugger.remove (d : Debugger) (a : Word) : Debugger := { breakpoints := d.breakpoints.filter fun b => b != a }

/-- Continue until breakpoint, at most `n` steps: it stops before a CPU step that would begin at an address in the set. What comes
before that CPU step (R298) happens first, and may switch to another thread. -/
def State.debugContinue (d : Debugger) : Nat → State → Out
  | 0, s => .next s
  | n + 1, s =>
    if s.atCpuStep && d.breakpoints.contains s.cpu.pc then .next s
    else match step s with
      | .next s' => State.debugContinue d n s'
      | .fault r => .fault r
      | .refused r => .refused r

end Sys2Proof.Machine
end

