-- ==== Sys2Proof/Safety.lean ====
section
/-! DEFINITION. The terms statements use for runs of the machine: reachable states, states that have stopped, states that
have ended normally, the well-formedness of memory and of the kernel's tables, the frame of one instruction, the values of
binary32 encodings, and the channels of pixels. -/

namespace Sys2Proof.Machine

/-- The machine has halted or refused: nothing happens any more (R37, R295). -/
def State.stopped (s : State) : Bool :=
  match s.run with
  | .halted _ => true
  | .refused _ _ _ => true
  | _ => false

/-- `t` is reached from `s` by steps that answer a next state. -/
inductive Reaches : State → State → Prop where
  | refl (s : State) : Reaches s s
  | step {s t u : State} (h : Reaches s t) (hs : Sys2Proof.Machine.step t = .next u) : Reaches s u

/-- No state reached from `s` has stopped. -/
def SafeFrom (s : State) : Prop := ∀ t, Reaches s t → t.stopped = false

/-- No thread is READY, WAIT or about to run (R296). -/
def Kernel.noneRunnable (k : Kernel) : Bool :=
  k.objects.all fun o =>
    match o.2.payload with
    | .thread t => !(t.state == .ready || t.state == .wait || t.state == .run)
    | _ => true

/-- The run has ended normally (R296): the process is closing, or no thread is current, none is READY or WAIT, and no event is
pending. -/
def State.completed (s : State) : Bool :=
  decide (s.run = .notStepping) && s.loader.isNone &&
    (s.kernel.closing || (s.kernel.current.isNone && s.kernel.noneRunnable && s.kernel.events.isEmpty))

/-- Memory is in canonical form (R54). -/
def State.memWf (s : State) : Bool := Memory.wf s.mem

/-- UIDs strictly rise in the object table, and lie in 1 to `slots - 1` (R305, R306). -/
def objectsWf (slots : Nat) : List (Nat × KernelObject) → Bool
  | [] => true
  | (u, _) :: rest =>
    decide (0 < u) && decide (u < slots) && rest.all (fun o => decide (u < o.1)) && objectsWf slots rest

/-- The scheduler's invariant (R309, R311): a thread stands in level `p` of the ready queue exactly when it is READY at priority
`p`, and at most once; and only the current thread is RUN. -/
structure SchedWf (k : Kernel) : Prop where
  ready : ∀ (u : Nat) (p : Fin 128),
    u ∈ k.ready[p] ↔ ∃ t, k.thread? u = some t ∧ t.state = .ready ∧ t.priority = p
  once : ∀ p : Fin 128, k.ready[p].Nodup
  run : ∀ u t, k.thread? u = some t → t.state = .run → k.current = some u

/-- `t` holds what no step takes away from `s`: the parameters, time and draws that never go back, and memory in canonical
form if it was (R7, R297, R54). -/
structure Kept (s t : State) : Prop where
  par : t.par = s.par
  cycles : s.cycles ≤ t.cycles
  draws : s.draws ≤ t.draws
  mem : Memory.wf s.mem = true → Memory.wf t.mem = true

/-! ## Frames: what one instruction changes and what it leaves alone

Each structure below says of every register, every special register, every byte of memory and every agent either the value it
has after the instruction or that it is unchanged. The model's own counter `draws` is named only where it moves. -/

/-- The pc advance of R25, and no control transfer. -/
structure Advanced (s t : State) : Prop where
  pc : t.cpu.pc = s.cpu.nextPc
  nextPc : t.cpu.nextPc = s.cpu.nextPc + 4#32
  ds : t.cpu.ds = false

/-- General registers, HI and LO are unchanged. -/
structure SameInteger (s t : State) : Prop where
  reg : ∀ q : Reg, t.x q = s.x q
  hi : t.cpu.hi = s.cpu.hi
  lo : t.cpu.lo = s.cpu.lo

/-- FPU registers and FCR31 are unchanged. -/
structure SameFpu (s t : State) : Prop where
  fpr : ∀ q : FReg, t.f q = s.f q
  fcr31 : t.cpu.fcr31 = s.cpu.fcr31

/-- Every byte of memory and the GPU are unchanged. -/
structure SameMemory (s t : State) : Prop where
  byte : ∀ a : Nat, Memory.read t.mem a = Memory.read s.mem a
  gpu : t.gpu = s.gpu

/-- The parameters, time, the kernel, the loader's hand-off and the vector unit are unchanged. -/
structure SameAgents (s t : State) : Prop where
  par : t.par = s.par
  cycles : t.cycles = s.cycles
  kernel : t.kernel = s.kernel
  loader : t.loader = s.loader
  vpr : t.cpu.vpr = s.cpu.vpr
  vpfx : t.cpu.vpfx = s.cpu.vpfx

/-- `x[r]` becomes `v` (register 0 stays 0, R21) and nothing else changes. -/
structure WritesReg (s t : State) (r : Reg) (v : Word) : Prop where
  reg : ∀ q : Reg, t.x q = if q = 0#5 then 0#32 else if q = r then v else s.x q
  hi : t.cpu.hi = s.cpu.hi
  lo : t.cpu.lo = s.cpu.lo
  advanced : Advanced s t
  fpu : SameFpu s t
  memory : SameMemory s t
  run : t.run = s.run
  agents : SameAgents s t

/-- HI and LO become `h` and `l` and nothing else changes. -/
structure WritesHiLo (s t : State) (h l : Word) : Prop where
  reg : ∀ q : Reg, t.x q = s.x q
  hi : t.cpu.hi = h
  lo : t.cpu.lo = l
  advanced : Advanced s t
  fpu : SameFpu s t
  memory : SameMemory s t
  run : t.run = s.run
  agents : SameAgents s t

/-- `f[r]` becomes `v` and nothing else changes. -/
structure WritesFpr (s t : State) (r : FReg) (v : Word) : Prop where
  fpr : ∀ q : FReg, t.f q = if q = r then v else s.f q
  fcr31 : t.cpu.fcr31 = s.cpu.fcr31
  advanced : Advanced s t
  integer : SameInteger s t
  memory : SameMemory s t
  run : t.run = s.run
  agents : SameAgents s t

/-- FCR31 becomes `v` and nothing else changes. -/
structure WritesFcr31 (s t : State) (v : Word) : Prop where
  fpr : ∀ q : FReg, t.f q = s.f q
  fcr31 : t.cpu.fcr31 = v
  advanced : Advanced s t
  integer : SameInteger s t
  memory : SameMemory s t
  run : t.run = s.run
  agents : SameAgents s t

/-- The bytes `bs` are stored at physical address `pa`, the texture cache entries that overlap them become dirty (R174), and nothing
else changes. -/
structure Stores (s t : State) (pa : Nat) (bs : List Byte) : Prop where
  stored : ∀ (k : Nat) (h : k < bs.length), Memory.read t.mem (pa + k) = bs[k]
  outside : ∀ a : Nat, a < pa ∨ pa + bs.length ≤ a → Memory.read t.mem a = Memory.read s.mem a
  gpu : t.gpu = { s.gpu with texCache := s.gpu.texCache.map (TexEntry.touch pa bs.length) }
  advanced : Advanced s t
  integer : SameInteger s t
  fpu : SameFpu s t
  run : t.run = s.run
  agents : SameAgents s t

/-- Control goes to `pc` and then `nextPc`, with `ds` as given; register `link`, if any, receives `A + 8` (R192), and nothing
else changes. -/
structure Transfers (s t : State) (link : Option Reg) (pc nextPc : Word) (ds : Bool) : Prop where
  pc : t.cpu.pc = pc
  nextPc : t.cpu.nextPc = nextPc
  ds : t.cpu.ds = ds
  reg : ∀ q : Reg, t.x q = if q = 0#5 then 0#32 else if link = some q then s.cpu.pc + 8#32 else s.x q
  hi : t.cpu.hi = s.cpu.hi
  lo : t.cpu.lo = s.cpu.lo
  fpu : SameFpu s t
  memory : SameMemory s t
  run : t.run = s.run
  agents : SameAgents s t

/-- The pc advances, `run` becomes `r`, and nothing else changes (R282, R286). -/
structure StopsAs (s t : State) (r : RunStatus) : Prop where
  run : t.run = r
  advanced : Advanced s t
  integer : SameInteger s t
  fpu : SameFpu s t
  memory : SameMemory s t
  agents : SameAgents s t

/-- The state of a halt after the pc advance (R282). -/
abbrev Halts (s t : State) (r : HaltReason) : Prop := StopsAs s t (.halted r)

/-! ## Classes of instructions -/

/-- The instructions that may write HI or LO (R23). -/
def mayWriteHiLo (i : Instr) : Bool :=
  match i with
  | .mult _ _ => true
  | .multu _ _ => true
  | .madd _ _ => true
  | .maddu _ _ => true
  | .msub _ _ => true
  | .msubu _ _ => true
  | .div _ _ => true
  | .divu _ _ => true
  | .mthi _ => true
  | .mtlo _ => true
  | _ => false

/-- The instructions that may write FCR31 (R31). -/
def mayWriteFcr31 (i : Instr) : Bool :=
  match i with
  | .ctc1 _ _ => true
  | .cF _ _ => true
  | .cUn _ _ => true
  | .cEq _ _ => true
  | .cUeq _ _ => true
  | .cOlt _ _ => true
  | .cUlt _ _ => true
  | .cOle _ _ => true
  | .cUle _ _ => true
  | .cSf _ _ => true
  | .cNgle _ _ => true
  | .cSeq _ _ => true
  | .cNgl _ _ => true
  | .cLt _ _ => true
  | .cNge _ _ => true
  | .cLe _ _ => true
  | .cNgt _ _ => true
  | _ => false

/-- The instructions that may write memory (R64). -/
def mayStore (i : Instr) : Bool :=
  match i with
  | .sb _ _ _ => true
  | .sh _ _ _ => true
  | .swl _ _ _ => true
  | .sw _ _ _ => true
  | .swr _ _ _ => true
  | .swc1 _ _ _ => true
  | _ => false

/-- The control-transfer instructions (R190). -/
def transfersControl (i : Instr) : Bool :=
  match i with
  | .beq _ _ _ => true
  | .bne _ _ _ => true
  | .blez _ _ => true
  | .bgtz _ _ => true
  | .beql _ _ _ => true
  | .bnel _ _ _ => true
  | .blezl _ _ => true
  | .bgtzl _ _ => true
  | .bltz _ _ => true
  | .bgez _ _ => true
  | .bltzl _ _ => true
  | .bgezl _ _ => true
  | .bltzal _ _ => true
  | .bgezal _ _ => true
  | .bltzall _ _ => true
  | .bgezall _ _ => true
  | .j _ => true
  | .jal _ => true
  | .jr _ => true
  | .jalr _ _ => true
  | .bc1f _ => true
  | .bc1t _ => true
  | .bc1fl _ => true
  | .bc1tl _ => true
  | _ => false

/-- The state with another vector unit (R35, R36). -/
def State.withVector (s : State) (v : Vector Word 128) (p : Vpfx) : State :=
  { s with cpu := { s.cpu with vpr := v, vpfx := p } }

/-! ## Binary32 numbers as rational numbers (R11), for statements about the FPU -/

/-- The value of a finite binary32 encoding; `none` for an infinity or a NaN. -/
def fpValue (v : Word) : Option ℚ :=
  let e := (v.extractLsb' 23 8).toNat
  let f := (v.extractLsb' 0 23).toNat
  let sign : ℚ := if v.msb then -1 else 1
  if e = 255 then none
  else if e = 0 then some (sign * f / 2 ^ 149)
  else some (sign * (2 ^ 23 + f) * 2 ^ e / 2 ^ 150)

/-- A NaN encoding: exponent all ones, fraction not zero. -/
def fpIsNan (v : Word) : Prop := v.extractLsb' 23 8 = 0xFF#8 ∧ v.extractLsb' 0 23 ≠ 0#23

/-- An infinity's encoding. -/
def fpIsInf (v : Word) : Prop := v.extractLsb' 23 8 = 0xFF#8 ∧ v.extractLsb' 0 23 = 0#23

/-- An encoding of zero. -/
def fpIsZero (v : Word) : Prop := v &&& 0x7FFFFFFF#32 = 0#32

/-- `v` is the real number `z` as binary32 to nearest, ties to even, as IEEE 754 rounds it (R215): the sign of `z`, or `neg` for an
exact zero; an infinity from the point halfway between the greatest number and 2^128 on; below it the nearest number, and of two
that are equally near the one with an even significand. -/
structure FpRounded (v : Word) (z : ℝ) (neg : Bool) : Prop where
  sign : v.msb = true ↔ z < 0 ∨ (z = 0 ∧ neg = true)
  overflow : 2 ^ 128 - 2 ^ 103 ≤ |z| → fpIsInf v
  finite : |z| < 2 ^ 128 - 2 ^ 103 → ∃ r, fpValue v = some r ∧
    (∀ u q, fpValue u = some q → |(r : ℝ) - z| ≤ |(q : ℝ) - z|) ∧
    (∀ u q, fpValue u = some q → q ≠ r → |(r : ℝ) - z| = |(q : ℝ) - z| → v.getLsbD 0 = false)

/-- `a` is less than `b` (R241): neither is a NaN, and the numbers, infinities included, are in order. -/
def fpIsLess (a b : Word) : Prop :=
  ¬ fpIsNan a ∧ ¬ fpIsNan b ∧
    match fpValue a, fpValue b with
    | some x, some y => x < y
    | some _, none => b.msb = false
    | none, some _ => a.msb = true
    | none, none => a.msb = true ∧ b.msb = false

/-- `a` equals `b` (R241). -/
def fpIsEqual (a b : Word) : Prop :=
  ¬ fpIsNan a ∧ ¬ fpIsNan b ∧
    match fpValue a, fpValue b with
    | some x, some y => x = y
    | none, none => a.msb = b.msb
    | _, _ => False

/-- `n` is `z` rounded in mode `m` (R233). -/
def roundsTo (m : RoundMode) (z : ℚ) (n : ℤ) : Prop :=
  match m with
  | .rn => |z - n| ≤ 1 / 2 ∧ (|z - n| = 1 / 2 → n % 2 = 0)
  | .rz => |(n : ℚ)| ≤ |z| ∧ |z| < |(n : ℚ)| + 1 ∧ 0 ≤ n * z
  | .rp => z ≤ n ∧ (n : ℚ) < z + 1
  | .rm => (n : ℚ) ≤ z ∧ z < n + 1

/-! ## Event flags -/

/-- The match of R335. -/
def flagFits (pattern bits : Word) (mode : FlagMode) : Prop :=
  match mode with
  | .or => pattern &&& bits ≠ 0#32
  | .and => pattern &&& bits = bits

/-- The output cell of a wait record (R335), a guest pointer; 0 for none. -/
def WaitRecord.out (r : WaitRecord) : Word :=
  match r.cond with
  | .bits _ _ _ out => out
  | _ => 0#32

/-! ## Pixels and colours (R383, R387, R396), for statements about the GPU -/

/-- The comparison `func` holds between `a` and `b` (R383). -/
def comparePasses (func : Nat) (a b : ℤ) : Prop :=
  match func with
  | 0 => False
  | 1 => True
  | 2 => a = b
  | 3 => a ≠ b
  | 4 => a < b
  | 5 => a ≤ b
  | 6 => a > b
  | _ => a ≥ b

/-- Every channel is a byte. -/
def Rgba.inRange (c : Rgba) : Prop := c.r ≤ 255 ∧ c.g ≤ 255 ∧ c.b ≤ 255 ∧ c.a ≤ 255

/-- Channel 0 is R, 1 is G, 2 is B, 3 is A. -/
def Rgba.channel (c : Rgba) (ch : Nat) : Nat :=
  match ch with
  | 0 => c.r
  | 1 => c.g
  | 2 => c.b
  | _ => c.a

/-- Where a pixel of format `fmt` keeps a channel: its lowest bit and its width (R387). -/
def channelField (fmt ch : Nat) : Nat × Nat :=
  match fmt, ch with
  | 0, 0 => (0, 5)
  | 0, 1 => (5, 6)
  | 0, 2 => (11, 5)
  | 0, _ => (16, 0)
  | 1, 0 => (0, 5)
  | 1, 1 => (5, 5)
  | 1, 2 => (10, 5)
  | 1, _ => (15, 1)
  | 2, ch => (4 * ch, 4)
  | _, ch => (8 * ch, 8)

/-- The pixel `v` holds the channel value `n`, by truncation (R396). -/
def pixelHolds (fmt ch : Nat) (v : Word) (n : Nat) : Prop :=
  (v.extractLsb' (channelField fmt ch).1 (channelField fmt ch).2).toNat = n / 2 ^ (8 - (channelField fmt ch).2)

/-- The pixels `v` and `w` hold the same channel value. -/
def pixelAgrees (fmt ch : Nat) (v w : Word) : Prop :=
  v.extractLsb' (channelField fmt ch).1 (channelField fmt ch).2 =
    w.extractLsb' (channelField fmt ch).1 (channelField fmt ch).2

end Sys2Proof.Machine
end

