-- ==== Sys2Proof/Certificates/Slice0/Obligations.lean ====
section
/-! DEFINITION. The statements for the provers. Each says in its docstring which rules of spec/ it formalises. An instruction's
statement gives its completion, its result and its frame (`WritesReg` and the other structures of Sys2Proof/Safety.lean).
Where a statement rests on a choice of the model, its docstring names the log entry. -/

open Sys2Proof Sys2Proof.Machine

/-! ## Encoding and decoding (spec/30_encoding.md) -/

/-- Decoding the word of a well-formed instruction gives it back, with every operand at every value (R81 to R104). -/
def Obligations.DecodeEncode : Prop := ∀ i : Instr, WellFormed i = true → decode (encode i) = .ok i

/-- A word that decodes is the word of its instruction, so no two words decode to one instruction and no bit of an accepted word
is ignored (R97, R99). -/
def Obligations.EncodeDecode : Prop := ∀ (w : Word) (i : Instr), decode w = .ok i → WellFormed i = true ∧ encode i = w

/-- Words written out from the encodings of their rules decode to the instructions they stand for. -/
def Obligations.KnownWordsDecode : Prop :=
  decode 0x00000000#32 = .ok (.sll 0#5 0#5 0#5) ∧
  decode 0x24220001#32 = .ok (.addiu 2#5 1#5 1#16) ∧
  decode 0x0022001A#32 = .ok (.div 1#5 2#5) ∧
  decode 0x8C22FFFC#32 = .ok (.lw 2#5 1#5 0xFFFC#16) ∧
  decode 0x1422FFFF#32 = .ok (.bne 1#5 2#5 0xFFFF#16) ∧
  decode 0x0020F809#32 = .ok (.jalr 31#5 1#5) ∧
  decode 0x46020803#32 = .ok (.divS 0#5 1#5 2#5) ∧
  decode 0x0000048C#32 = .ok (.syscall 0x12#20) ∧
  decode 0xDC000000#32 = .ok (.vfpu5 0xDC000000#32)

/-! ## The step (R25, R63, R103, R282) -/

/-- A step of the running CPU whose fetched word decodes to `i` is `exec i`, followed by the cycle charge, unless the instruction
halted (R25, R282). An event that is due, or a `Reschedule()` that an event has requested, comes before the next CPU step (R298);
that each of them is a step of its own, taken before the instruction, is the model's (notes/assumptions/9). -/
def Obligations.StepRunsDecoded : Prop :=
  ∀ (s : State) (w : Word) (i : Instr), s.run = .running → s.dueEvent = none → s.kernel.reschedRequested = false →
    s.cpu.pc ≠ s.par.callbackReturnAddr → s.fetch s.cpu.pc = .ok w → decode w = .ok i →
    step s = match exec i s with
      | .next t =>
        .next (match t.run with
          | .halted _ => t
          | _ => { t with cycles := t.cycles + t.par.cpi })
      | .fault r => .fault r
      | .refused r => .refused r

/-- A fetch halts where it stands: a misaligned pc first, then an unmapped one, nothing but `run` changing; a word that is no
instruction halts after the pc advance (R63, R103, R282, R284). No event is due and none has requested `Reschedule()`
(notes/assumptions/9). That the bytes of a word that runs past the end of its region are those that memory holds there is the
model's choice (notes/assumptions/43): R63 gives none. -/
def Obligations.FetchAndDecodeHalts : Prop :=
  ∀ s : State, s.run = .running → s.dueEvent = none → s.kernel.reschedRequested = false →
    s.cpu.pc ≠ s.par.callbackReturnAddr →
    (s.cpu.pc.toNat % 4 ≠ 0 → step s = .next { s with run := .halted (.fetchMisaligned s.cpu.pc) }) ∧
    (s.cpu.pc.toNat % 4 = 0 → translate s.par s.cpu.pc = none →
      step s = .next { s with run := .halted (.fetchUnmapped s.cpu.pc) }) ∧
    (∀ pa e, s.cpu.pc.toNat % 4 = 0 → translate s.par s.cpu.pc = some pa →
      decode (Memory.read s.mem (pa + 3) ++ Memory.read s.mem (pa + 2) ++ Memory.read s.mem (pa + 1) ++
        Memory.read s.mem pa) = .error e →
      ∃ t, step s = .next t ∧ Halts s t (.unrecognizedOpcode (Memory.read s.mem (pa + 3) ++ Memory.read s.mem (pa + 2) ++
        Memory.read s.mem (pa + 1) ++ Memory.read s.mem pa) s.cpu.pc))

/-! ## Register ALU (spec/41_alu_register.md, spec/42_alu_immediate.md) -/

/-- SLL, SRL, ROTR and SRA (R111 to R114) and SLLV, SRLV, ROTRV and SRAV (R115 to R118), as arithmetic on the numbers the words
stand for: of a register that gives the amount only the low five bits count. -/
def Obligations.Shifts : Prop :=
  ∀ (s : State) (rd rt rs : Reg) (sa : BitVec 5),
    (∃ t v, exec (.sll rd rt sa) s = .next t ∧ v.toNat = (s.x rt).toNat * 2 ^ sa.toNat % 2 ^ 32 ∧ WritesReg s t rd v) ∧
    (∃ t v, exec (.srl rd rt sa) s = .next t ∧ v.toNat = (s.x rt).toNat / 2 ^ sa.toNat ∧ WritesReg s t rd v) ∧
    (∃ t v, exec (.rotr rd rt sa) s = .next t ∧
      (∀ i, i < 32 → v.getLsbD i = (s.x rt).getLsbD ((i + sa.toNat) % 32)) ∧ WritesReg s t rd v) ∧
    (∃ t v, exec (.sra rd rt sa) s = .next t ∧ v.toInt = (s.x rt).toInt / 2 ^ sa.toNat ∧ WritesReg s t rd v) ∧
    (∃ t v, exec (.sllv rd rt rs) s = .next t ∧ v.toNat = (s.x rt).toNat * 2 ^ ((s.x rs).toNat % 32) % 2 ^ 32 ∧
      WritesReg s t rd v) ∧
    (∃ t v, exec (.srlv rd rt rs) s = .next t ∧ v.toNat = (s.x rt).toNat / 2 ^ ((s.x rs).toNat % 32) ∧
      WritesReg s t rd v) ∧
    (∃ t v, exec (.rotrv rd rt rs) s = .next t ∧
      (∀ i, i < 32 → v.getLsbD i = (s.x rt).getLsbD ((i + (s.x rs).toNat % 32) % 32)) ∧ WritesReg s t rd v) ∧
    (∃ t v, exec (.srav rd rt rs) s = .next t ∧ v.toInt = (s.x rt).toInt / 2 ^ ((s.x rs).toNat % 32) ∧
      WritesReg s t rd v)

/-- The register moves MOVZ, MOVN, MFHI, MFLO, MTHI and MTLO (R119, R120, R150 to R153): a conditional move copies rs or writes
nothing. -/
def Obligations.RegisterMoves : Prop :=
  ∀ (s : State) (rd rs rt : Reg),
    (∃ t, exec (.movz rd rs rt) s = .next t ∧ WritesReg s t rd (if (s.x rt).toNat = 0 then s.x rs else s.x rd)) ∧
    (∃ t, exec (.movn rd rs rt) s = .next t ∧ WritesReg s t rd (if (s.x rt).toNat = 0 then s.x rd else s.x rs)) ∧
    (∃ t, exec (.mfhi rd) s = .next t ∧ WritesReg s t rd s.cpu.hi) ∧
    (∃ t, exec (.mflo rd) s = .next t ∧ WritesReg s t rd s.cpu.lo) ∧
    (∃ t, exec (.mthi rs) s = .next t ∧ WritesHiLo s t (s.x rs) s.cpu.lo) ∧
    (∃ t, exec (.mtlo rs) s = .next t ∧ WritesHiLo s t s.cpu.hi (s.x rs))

/-- CLZ and CLO (R121, R122): the length of the run of equal bits from bit 31 down; WSBH, WSBW, BITREV, SEB and SEH (R137 to
R141), as permutations of bit positions and as signed values. -/
def Obligations.BitCountsAndShuffles : Prop :=
  ∀ (s : State) (rd rs rt : Reg),
    (∃ t v, exec (.clz rd rs) s = .next t ∧ v.toNat ≤ 32 ∧
      (∀ i, 32 - v.toNat ≤ i → i < 32 → (s.x rs).getLsbD i = false) ∧
      (v.toNat < 32 → (s.x rs).getLsbD (31 - v.toNat) = true) ∧ WritesReg s t rd v) ∧
    (∃ t v, exec (.clo rd rs) s = .next t ∧ v.toNat ≤ 32 ∧
      (∀ i, 32 - v.toNat ≤ i → i < 32 → (s.x rs).getLsbD i = true) ∧
      (v.toNat < 32 → (s.x rs).getLsbD (31 - v.toNat) = false) ∧ WritesReg s t rd v) ∧
    (∃ t v, exec (.wsbh rd rt) s = .next t ∧
      (∀ i, i < 32 → v.getLsbD i = (s.x rt).getLsbD (i ^^^ 8)) ∧ WritesReg s t rd v) ∧
    (∃ t v, exec (.wsbw rd rt) s = .next t ∧
      (∀ i, i < 32 → v.getLsbD i = (s.x rt).getLsbD (i ^^^ 24)) ∧ WritesReg s t rd v) ∧
    (∃ t v, exec (.bitrev rd rt) s = .next t ∧
      (∀ i, i < 32 → v.getLsbD i = (s.x rt).getLsbD (31 - i)) ∧ WritesReg s t rd v) ∧
    (∃ t v, exec (.seb rd rt) s = .next t ∧
      v.toInt = (if (s.x rt).toNat % 256 < 128 then ((s.x rt).toNat % 256 : ℤ) else ((s.x rt).toNat % 256 : ℤ) - 256) ∧
      WritesReg s t rd v) ∧
    (∃ t v, exec (.seh rd rt) s = .next t ∧
      v.toInt = (if (s.x rt).toNat % 65536 < 32768 then ((s.x rt).toNat % 65536 : ℤ)
        else ((s.x rt).toNat % 65536 : ℤ) - 65536) ∧
      WritesReg s t rd v)

/-- ADDU, SUBU and ADDIU modulo 2^32, and ADD, SUB and ADDI where the exact signed result fits in 32 bits (R123 to R126, R142,
R143). -/
def Obligations.Sums : Prop :=
  ∀ (s : State) (rd rs rt : Reg) (imm : BitVec 16),
    (∃ t v, exec (.addu rd rs rt) s = .next t ∧ v.toNat = ((s.x rs).toNat + (s.x rt).toNat) % 2 ^ 32 ∧
      WritesReg s t rd v) ∧
    (∃ t v, exec (.subu rd rs rt) s = .next t ∧ (v.toNat + (s.x rt).toNat) % 2 ^ 32 = (s.x rs).toNat ∧
      WritesReg s t rd v) ∧
    (∃ t v, exec (.addiu rt rs imm) s = .next t ∧ (v.toInt - ((s.x rs).toInt + imm.toInt)) % 2 ^ 32 = 0 ∧
      WritesReg s t rt v) ∧
    (-2 ^ 31 ≤ (s.x rs).toInt + (s.x rt).toInt → (s.x rs).toInt + (s.x rt).toInt < 2 ^ 31 →
      ∃ t v, exec (.add rd rs rt) s = .next t ∧ v.toInt = (s.x rs).toInt + (s.x rt).toInt ∧ WritesReg s t rd v) ∧
    (-2 ^ 31 ≤ (s.x rs).toInt - (s.x rt).toInt → (s.x rs).toInt - (s.x rt).toInt < 2 ^ 31 →
      ∃ t v, exec (.sub rd rs rt) s = .next t ∧ v.toInt = (s.x rs).toInt - (s.x rt).toInt ∧ WritesReg s t rd v) ∧
    (-2 ^ 31 ≤ (s.x rs).toInt + imm.toInt → (s.x rs).toInt + imm.toInt < 2 ^ 31 →
      ∃ t v, exec (.addi rt rs imm) s = .next t ∧ v.toInt = (s.x rs).toInt + imm.toInt ∧ WritesReg s t rt v)

/-- What ADD, SUB and ADDI do on overflow (R110): halt with nothing written, or write the result modulo 2^32, as
`OVERFLOW_MODE` says. -/
def Obligations.OverflowFollowsMode : Prop :=
  ∀ (s : State) (rd rs rt : Reg) (imm : BitVec 16),
    ∀ c ∈ [(Instr.add rd rs rt, rd, (s.x rs).toInt + (s.x rt).toInt),
           (Instr.sub rd rs rt, rd, (s.x rs).toInt - (s.x rt).toInt),
           (Instr.addi rt rs imm, rt, (s.x rs).toInt + imm.toInt)],
      c.2.2 < -2 ^ 31 ∨ 2 ^ 31 - 1 < c.2.2 →
      (s.par.overflowMode = .halt → ∃ t, exec c.1 s = .next t ∧ Halts s t (.integerOverflow s.cpu.pc)) ∧
      (s.par.overflowMode = .wrap → ∃ t v, exec c.1 s = .next t ∧ (v.toInt - c.2.2) % 2 ^ 32 = 0 ∧ WritesReg s t c.2.1 v)

/-- AND, OR, XOR, NOR and their immediate forms, and LUI (R127 to R130, R146 to R149), bit by bit: an immediate is
zero-extended. -/
def Obligations.BitwiseLogic : Prop :=
  ∀ (s : State) (rd rs rt : Reg) (imm : BitVec 16),
    (∃ t v, exec (.and rd rs rt) s = .next t ∧
      (∀ i, i < 32 → v.getLsbD i = ((s.x rs).getLsbD i && (s.x rt).getLsbD i)) ∧ WritesReg s t rd v) ∧
    (∃ t v, exec (.or rd rs rt) s = .next t ∧
      (∀ i, i < 32 → v.getLsbD i = ((s.x rs).getLsbD i || (s.x rt).getLsbD i)) ∧ WritesReg s t rd v) ∧
    (∃ t v, exec (.xor rd rs rt) s = .next t ∧
      (∀ i, i < 32 → v.getLsbD i = ((s.x rs).getLsbD i != (s.x rt).getLsbD i)) ∧ WritesReg s t rd v) ∧
    (∃ t v, exec (.nor rd rs rt) s = .next t ∧
      (∀ i, i < 32 → v.getLsbD i = !((s.x rs).getLsbD i || (s.x rt).getLsbD i)) ∧ WritesReg s t rd v) ∧
    (∃ t v, exec (.andi rt rs imm) s = .next t ∧
      (∀ i, i < 32 → v.getLsbD i = (decide (i < 16) && (s.x rs).getLsbD i && imm.getLsbD i)) ∧ WritesReg s t rt v) ∧
    (∃ t v, exec (.ori rt rs imm) s = .next t ∧
      (∀ i, i < 32 → v.getLsbD i = ((s.x rs).getLsbD i || (decide (i < 16) && imm.getLsbD i))) ∧ WritesReg s t rt v) ∧
    (∃ t v, exec (.xori rt rs imm) s = .next t ∧
      (∀ i, i < 32 → v.getLsbD i = ((s.x rs).getLsbD i != (decide (i < 16) && imm.getLsbD i))) ∧ WritesReg s t rt v) ∧
    (∃ t v, exec (.lui rt imm) s = .next t ∧ v.toNat = imm.toNat * 2 ^ 16 ∧ WritesReg s t rt v)

/-- SLT, SLTU, SLTI, SLTIU, MAX and MIN (R131 to R134, R144, R145): 1 or 0, and the signed maximum and minimum. SLTIU's immediate
is sign-extended and then compared unsigned. -/
def Obligations.Comparisons : Prop :=
  ∀ (s : State) (rd rs rt : Reg) (imm : BitVec 16),
    (∃ t v, exec (.slt rd rs rt) s = .next t ∧ v.toNat = (if (s.x rs).toInt < (s.x rt).toInt then 1 else 0) ∧
      WritesReg s t rd v) ∧
    (∃ t v, exec (.sltu rd rs rt) s = .next t ∧ v.toNat = (if (s.x rs).toNat < (s.x rt).toNat then 1 else 0) ∧
      WritesReg s t rd v) ∧
    (∃ t v, exec (.slti rt rs imm) s = .next t ∧ v.toNat = (if (s.x rs).toInt < imm.toInt then 1 else 0) ∧
      WritesReg s t rt v) ∧
    (∃ t v, exec (.sltiu rt rs imm) s = .next t ∧
      v.toNat = (if (s.x rs).toNat < (if imm.msb then imm.toNat + 0xFFFF0000 else imm.toNat) then 1 else 0) ∧
      WritesReg s t rt v) ∧
    (∃ t v, exec (.max rd rs rt) s = .next t ∧ v.toInt = max (s.x rs).toInt (s.x rt).toInt ∧ WritesReg s t rd v) ∧
    (∃ t v, exec (.min rd rs rt) s = .next t ∧ v.toInt = min (s.x rs).toInt (s.x rt).toInt ∧ WritesReg s t rd v)

/-- EXT and INS (R135, R136): the field where the operands name one inside the word, and the halt where they do not. -/
def Obligations.BitFields : Prop :=
  ∀ (s : State) (rt rs : Reg) (pos msb : BitVec 5) (size : Nat),
    (pos.toNat + size ≤ 32 → ∃ t v, exec (.ext rt rs pos size) s = .next t ∧
      v.toNat = (s.x rs).toNat / 2 ^ pos.toNat % 2 ^ size ∧ WritesReg s t rt v) ∧
    (32 < pos.toNat + size → ∃ t, exec (.ext rt rs pos size) s = .next t ∧
      Halts s t (.unpredictableOperand s.cpu.pc)) ∧
    (pos.toNat ≤ msb.toNat → ∃ t v, exec (.ins rt rs pos msb) s = .next t ∧
      (∀ i, i < 32 → v.getLsbD i =
        if pos.toNat ≤ i ∧ i ≤ msb.toNat then (s.x rs).getLsbD (i - pos.toNat) else (s.x rt).getLsbD i) ∧
      WritesReg s t rt v) ∧
    (msb.toNat < pos.toNat → ∃ t, exec (.ins rt rs pos msb) s = .next t ∧ Halts s t (.unpredictableOperand s.cpu.pc))

/-! ## Multiply and divide (spec/43_muldiv.md) -/

/-- The multiply and multiply-accumulate instructions (R154 to R159): the 64-bit pair HI || LO is the exact product, or the old
pair plus or minus it, modulo 2^64. -/
def Obligations.MultiplyAccumulate : Prop :=
  ∀ (s : State) (rs rt : Reg),
    ∀ c ∈ [(Instr.mult rs rt, (s.x rs).toInt * (s.x rt).toInt),
           (Instr.multu rs rt, ((s.x rs).toNat * (s.x rt).toNat : ℤ)),
           (Instr.madd rs rt, (s.cpu.hi.toNat * 2 ^ 32 + s.cpu.lo.toNat : ℤ) + (s.x rs).toInt * (s.x rt).toInt),
           (Instr.maddu rs rt, (s.cpu.hi.toNat * 2 ^ 32 + s.cpu.lo.toNat : ℤ) + (s.x rs).toNat * (s.x rt).toNat),
           (Instr.msub rs rt, (s.cpu.hi.toNat * 2 ^ 32 + s.cpu.lo.toNat : ℤ) - (s.x rs).toInt * (s.x rt).toInt),
           (Instr.msubu rs rt, (s.cpu.hi.toNat * 2 ^ 32 + s.cpu.lo.toNat : ℤ) - (s.x rs).toNat * (s.x rt).toNat)],
      ∃ t h l, exec c.1 s = .next t ∧ (h.toNat * 2 ^ 32 + l.toNat : ℤ) = c.2 % 2 ^ 64 ∧ WritesHiLo s t h l

/-- DIV and DIVU (R160, R161): by a divisor other than 0, the quotient to LO and the remainder to HI, the signed remainder with the
sign of the dividend; and the corners: DIV by zero and INT_MIN / -1, and DIVU by zero under each value of `DIVU_BY_ZERO`, which
writes HI and LO and nothing else whatever the function is. -/
def Obligations.Divide : Prop :=
  ∀ (s : State) (rs rt : Reg),
    ((s.x rt).toNat ≠ 0 → ¬ ((s.x rs).toInt = -2 ^ 31 ∧ (s.x rt).toInt = -1) →
      ∃ t q r, exec (.div rs rt) s = .next t ∧ (s.x rs).toInt = q.toInt * (s.x rt).toInt + r.toInt ∧
        |r.toInt| < |(s.x rt).toInt| ∧ 0 ≤ r.toInt * (s.x rs).toInt ∧ WritesHiLo s t r q) ∧
    ((s.x rt).toNat ≠ 0 → ∃ t q r, exec (.divu rs rt) s = .next t ∧
      (s.x rs).toNat = q.toNat * (s.x rt).toNat + r.toNat ∧ r.toNat < (s.x rt).toNat ∧ WritesHiLo s t r q) ∧
    ((s.x rt).toNat = 0 → ∃ t, exec (.div rs rt) s = .next t ∧
      WritesHiLo s t (s.x rs) (if 0 ≤ (s.x rs).toInt then 0xFFFFFFFF#32 else 1#32)) ∧
    ((s.x rs).toInt = -2 ^ 31 → (s.x rt).toInt = -1 → ∃ t, exec (.div rs rt) s = .next t ∧
      WritesHiLo s t 0#32 0x80000000#32) ∧
    ((s.x rt).toNat = 0 → ∃ t h l, exec (.divu rs rt) s = .next t ∧ WritesHiLo s t h l ∧
      (s.par.divuByZero = .reference → h = s.x rs ∧ l = 0xFFFFFFFF#32) ∧
      (s.par.divuByZero = .halfword → h = s.x rs ∧ l = if (s.x rs).toNat ≤ 0xFFFF then 0x0000FFFF#32 else 0xFFFFFFFF#32) ∧
      (s.par.divuByZero = .free → (h, l) = Config.divuByZero (s.x rs)))

/-! ## Loads and stores (spec/44_loadstore.md, spec/20_memory.md) -/

/-- LB, LBU, LH, LHU, LW and LWC1 (R175, R176, R178 to R180, R187) at an address that is aligned and mapped: the little-endian
bytes there (R55), sign- or zero-extended. LWL and LWR (R177, R181), byte by byte: with `sh = EA[1:0]` and the aligned word at
`pa`, LWL puts the word's bytes 0 to `sh` into the most significant bytes of rt, LWR its bytes `sh` to 3 into the least
significant, and the other bytes of rt stay. `pa` is the physical address of the access. -/
def Obligations.Loads : Prop :=
  ∀ (s : State) (rt base : Reg) (ft : FReg) (off : BitVec 16) (pa : Nat),
    (dataAddress s.par (s.ea base off) 1 = .ok pa →
      (∃ t v, exec (.lb rt base off) s = .next t ∧ v.toInt = (Memory.read s.mem pa).toInt ∧ WritesReg s t rt v) ∧
      (∃ t v, exec (.lbu rt base off) s = .next t ∧ v.toNat = (Memory.read s.mem pa).toNat ∧ WritesReg s t rt v)) ∧
    (dataAddress s.par (s.ea base off) 2 = .ok pa →
      (∃ t v, exec (.lh rt base off) s = .next t ∧
        v.toInt = (Memory.read s.mem (pa + 1)).toInt * 256 + (Memory.read s.mem pa).toNat ∧ WritesReg s t rt v) ∧
      (∃ t v, exec (.lhu rt base off) s = .next t ∧
        v.toNat = (Memory.read s.mem (pa + 1)).toNat * 256 + (Memory.read s.mem pa).toNat ∧ WritesReg s t rt v)) ∧
    (dataAddress s.par (s.ea base off) 4 = .ok pa →
      (∃ t v, exec (.lw rt base off) s = .next t ∧
        (∀ k, k < 4 → v.extractLsb' (8 * k) 8 = Memory.read s.mem (pa + k)) ∧ WritesReg s t rt v) ∧
      (∃ t v, exec (.lwc1 ft base off) s = .next t ∧
        (∀ k, k < 4 → v.extractLsb' (8 * k) 8 = Memory.read s.mem (pa + k)) ∧ WritesFpr s t ft v)) ∧
    (dataAddress s.par (s.ea base off &&& 0xFFFFFFFC#32) 4 = .ok pa →
      (∃ t v, exec (.lwl rt base off) s = .next t ∧
        (∀ k, k < 4 → v.extractLsb' (8 * k) 8 =
          if 3 ≤ k + (s.ea base off).toNat % 4 then Memory.read s.mem (pa + (k + (s.ea base off).toNat % 4 - 3))
          else (s.x rt).extractLsb' (8 * k) 8) ∧ WritesReg s t rt v) ∧
      (∃ t v, exec (.lwr rt base off) s = .next t ∧
        (∀ k, k < 4 → v.extractLsb' (8 * k) 8 =
          if k + (s.ea base off).toNat % 4 ≤ 3 then Memory.read s.mem (pa + (k + (s.ea base off).toNat % 4))
          else (s.x rt).extractLsb' (8 * k) 8) ∧ WritesReg s t rt v))

/-- SB, SH, SW and SWC1 (R182, R183, R185, R188) at an address that is aligned and mapped: the low bytes of the register, the
least significant at the lowest address, and no other byte. SWL and SWR (R184, R186): with `sh = EA[1:0]` and the aligned word at
`pa`, SWL stores the most significant `sh + 1` bytes of rt from `pa` up, SWR the least significant `4 - sh` bytes from `pa + sh`
up: that these bytes lie at consecutive physical addresses from `pa`, the translation of the aligned word, where the two rules write
each byte with a `MemWrite` of its own, is the model's choice (notes/assumptions/44). A texture cache entry that overlaps becomes
dirty and nothing else changes (R174). -/
def Obligations.StoresWrite : Prop :=
  ∀ (s : State) (rt base : Reg) (ft : FReg) (off : BitVec 16) (pa : Nat), s.memWf = true →
    (dataAddress s.par (s.ea base off) 1 = .ok pa →
      ∃ t, exec (.sb rt base off) s = .next t ∧ Stores s t pa [(s.x rt).extractLsb' 0 8]) ∧
    (dataAddress s.par (s.ea base off) 2 = .ok pa →
      ∃ t, exec (.sh rt base off) s = .next t ∧ Stores s t pa [(s.x rt).extractLsb' 0 8, (s.x rt).extractLsb' 8 8]) ∧
    (dataAddress s.par (s.ea base off) 4 = .ok pa →
      (∃ t, exec (.sw rt base off) s = .next t ∧
        Stores s t pa [(s.x rt).extractLsb' 0 8, (s.x rt).extractLsb' 8 8, (s.x rt).extractLsb' 16 8,
          (s.x rt).extractLsb' 24 8]) ∧
      (∃ t, exec (.swc1 ft base off) s = .next t ∧
        Stores s t pa [(s.f ft).extractLsb' 0 8, (s.f ft).extractLsb' 8 8, (s.f ft).extractLsb' 16 8,
          (s.f ft).extractLsb' 24 8])) ∧
    (dataAddress s.par (s.ea base off &&& 0xFFFFFFFC#32) 4 = .ok pa →
      (∃ t, exec (.swl rt base off) s = .next t ∧
        Stores s t pa ((List.range ((s.ea base off).toNat % 4 + 1)).map fun k =>
          (s.x rt).extractLsb' (8 * (k + 3 - (s.ea base off).toNat % 4)) 8)) ∧
      (∃ t, exec (.swr rt base off) s = .next t ∧
        Stores s t (pa + (s.ea base off).toNat % 4) ((List.range (4 - (s.ea base off).toNat % 4)).map fun k =>
          (s.x rt).extractLsb' (8 * k) 8)))

/-- Data accesses that halt (R61, R62, R65, R284): a misaligned access reports the misalignment, an aligned one that is not
mapped as a whole reports that, and nothing is written. LWL, LWR, SWL and SWR access the aligned word and are never
misaligned. -/
def Obligations.DataAccessHalts : Prop :=
  ∀ (s : State) (rt base : Reg) (ft : FReg) (off : BitVec 16),
    (∀ i ∈ [Instr.lh rt base off, .lhu rt base off, .sh rt base off], (s.ea base off).toNat % 2 ≠ 0 →
      ∃ t, exec i s = .next t ∧ Halts s t (.addressMisaligned (s.ea base off) 2)) ∧
    (∀ i ∈ [Instr.lw rt base off, .sw rt base off, .lwc1 ft base off, .swc1 ft base off], (s.ea base off).toNat % 4 ≠ 0 →
      ∃ t, exec i s = .next t ∧ Halts s t (.addressMisaligned (s.ea base off) 4)) ∧
    (∀ i ∈ [Instr.lb rt base off, .lbu rt base off, .sb rt base off], translateRange s.par (s.ea base off) 1 = none →
      ∃ t, exec i s = .next t ∧ Halts s t (.addressUnmapped (s.ea base off) 1)) ∧
    (∀ i ∈ [Instr.lh rt base off, .lhu rt base off, .sh rt base off], (s.ea base off).toNat % 2 = 0 →
      translateRange s.par (s.ea base off) 2 = none →
      ∃ t, exec i s = .next t ∧ Halts s t (.addressUnmapped (s.ea base off) 2)) ∧
    (∀ i ∈ [Instr.lw rt base off, .sw rt base off, .lwc1 ft base off, .swc1 ft base off], (s.ea base off).toNat % 4 = 0 →
      translateRange s.par (s.ea base off) 4 = none →
      ∃ t, exec i s = .next t ∧ Halts s t (.addressUnmapped (s.ea base off) 4)) ∧
    (∀ i ∈ [Instr.lwl rt base off, .lwr rt base off, .swl rt base off, .swr rt base off],
      translateRange s.par (s.ea base off &&& 0xFFFFFFFC#32) 4 = none →
      ∃ t, exec i s = .next t ∧ Halts s t (.addressUnmapped (s.ea base off &&& 0xFFFFFFFC#32) 4))

/-- A word stored by SW is loaded back by the next LW and, byte by byte, by LBU, through any alias of its address (R56, R59, R70):
an address that translates to the same place, which under the reference `TRANSLATE` is any mapped address with the same low 29
bits. -/
def Obligations.StoreThenLoad : Prop :=
  ∀ (s : State) (rt rd base b2 : Reg) (off o2 : BitVec 16) (pa : Nat), s.memWf = true →
    dataAddress s.par (s.ea base off) 4 = .ok pa →
    (∃ t, exec (.sw rt base off) s = .next t ∧
      (dataAddress s.par (s.ea b2 o2) 4 = .ok pa →
        ∃ u, exec (.lw rd b2 o2) t = .next u ∧ (rd ≠ 0#5 → u.x rd = s.x rt)) ∧
      (∀ k, k < 4 → dataAddress s.par (s.ea b2 o2) 1 = .ok (pa + k) →
        ∃ u, exec (.lbu rd b2 o2) t = .next u ∧ (rd ≠ 0#5 → (u.x rd).toNat = ((s.x rt).extractLsb' (8 * k) 8).toNat))) ∧
    (s.par.segments = Config.referenceSegments →
      (∀ pb, dataAddress s.par (s.ea b2 o2) 4 = .ok pb →
        (s.ea b2 o2).extractLsb' 0 29 = (s.ea base off).extractLsb' 0 29 → pb = pa) ∧
      (∀ k pb, k < 4 → dataAddress s.par (s.ea b2 o2) 1 = .ok pb →
        (s.ea b2 o2).extractLsb' 0 29 = (s.ea base off + BitVec.ofNat 32 k).extractLsb' 0 29 → pb = pa + k))

/-! ## Branches and jumps (spec/45_branch_jump.md, spec/46_fpu.md R220 to R223) -/

/-- The ordinary branches outside a delay slot (R190, R191, R195 to R198, R203, R204, R220, R221): the delay slot runs next, and
then the target or the instruction after the slot. -/
def Obligations.OrdinaryBranches : Prop :=
  ∀ (s : State) (rs rt : Reg) (off : BitVec 16), s.cpu.ds = false →
    ∀ c ∈ [(Instr.beq rs rt off, decide (s.x rs = s.x rt)), (.bne rs rt off, decide (s.x rs ≠ s.x rt)),
           (.blez rs off, decide ((s.x rs).toInt ≤ 0)), (.bgtz rs off, decide (0 < (s.x rs).toInt)),
           (.bltz rs off, decide ((s.x rs).toInt < 0)), (.bgez rs off, decide (0 ≤ (s.x rs).toInt)),
           (.bc1f off, !s.cpu.fcr31.getLsbD 23), (.bc1t off, s.cpu.fcr31.getLsbD 23)],
      ∃ t, exec c.1 s = .next t ∧
        Transfers s t none s.cpu.nextPc
          (if c.2 then s.cpu.pc + 4#32 + off.signExtend 32 <<< 2 else s.cpu.nextPc + 4#32) true

/-- The likely branches outside a delay slot (R190, R194, R199 to R202, R205, R206, R222, R223): taken as an ordinary branch; not
taken, the delay slot is skipped. -/
def Obligations.LikelyBranches : Prop :=
  ∀ (s : State) (rs rt : Reg) (off : BitVec 16), s.cpu.ds = false →
    ∀ c ∈ [(Instr.beql rs rt off, decide (s.x rs = s.x rt)), (.bnel rs rt off, decide (s.x rs ≠ s.x rt)),
           (.blezl rs off, decide ((s.x rs).toInt ≤ 0)), (.bgtzl rs off, decide (0 < (s.x rs).toInt)),
           (.bltzl rs off, decide ((s.x rs).toInt < 0)), (.bgezl rs off, decide (0 ≤ (s.x rs).toInt)),
           (.bc1fl off, !s.cpu.fcr31.getLsbD 23), (.bc1tl off, s.cpu.fcr31.getLsbD 23)],
      ∃ t, exec c.1 s = .next t ∧
        if c.2 then Transfers s t none s.cpu.nextPc (s.cpu.pc + 4#32 + off.signExtend 32 <<< 2) true
        else Transfers s t none (s.cpu.nextPc + 4#32) (s.cpu.nextPc + 8#32) false

/-- Outside a delay slot: BLTZAL, BGEZAL, BLTZALL and BGEZALL (R192, R207 to R210), whose condition reads the old rs and whose
`x[31]` receives A + 8 whether or not the branch is taken; and J, JAL, JR and JALR (R191, R192, R211 to R214): J and JAL take the
top four bits of A + 4, JALR jumps to the old rs, and a link to register 0 is discarded. -/
def Obligations.LinkingBranchesAndJumps : Prop :=
  ∀ (s : State) (rd rs : Reg) (off : BitVec 16) (target : BitVec 26), s.cpu.ds = false →
    (∀ c ∈ [(Instr.bltzal rs off, decide ((s.x rs).toInt < 0)), (.bgezal rs off, decide (0 ≤ (s.x rs).toInt))],
      ∃ t, exec c.1 s = .next t ∧
        Transfers s t (some 31#5) s.cpu.nextPc
          (if c.2 then s.cpu.pc + 4#32 + off.signExtend 32 <<< 2 else s.cpu.nextPc + 4#32) true) ∧
    (∀ c ∈ [(Instr.bltzall rs off, decide ((s.x rs).toInt < 0)), (.bgezall rs off, decide (0 ≤ (s.x rs).toInt))],
      ∃ t, exec c.1 s = .next t ∧
        if c.2 then Transfers s t (some 31#5) s.cpu.nextPc (s.cpu.pc + 4#32 + off.signExtend 32 <<< 2) true
        else Transfers s t (some 31#5) (s.cpu.nextPc + 4#32) (s.cpu.nextPc + 8#32) false) ∧
    (∃ t, exec (.j target) s = .next t ∧
      Transfers s t none s.cpu.nextPc ((s.cpu.pc + 4#32).extractLsb' 28 4 ++ target ++ 0#2) true) ∧
    (∃ t, exec (.jal target) s = .next t ∧
      Transfers s t (some 31#5) s.cpu.nextPc ((s.cpu.pc + 4#32).extractLsb' 28 4 ++ target ++ 0#2) true) ∧
    (∃ t, exec (.jr rs) s = .next t ∧ Transfers s t none s.cpu.nextPc (s.x rs) true) ∧
    (∃ t, exec (.jalr rd rs) s = .next t ∧ Transfers s t (some rd) s.cpu.nextPc (s.x rs) true)

/-- A control transfer in a delay slot halts, with nothing written, the link included (R190, R282). -/
def Obligations.TransferInDelaySlotHalts : Prop :=
  ∀ (s : State) (i : Instr), s.cpu.ds = true → transfersControl i = true →
    ∃ t, exec i s = .next t ∧ Halts s t (.branchInDelaySlot s.cpu.pc)

/-! ## Floating point (spec/46_fpu.md) -/

/-- MFC1, MTC1, ABS.S, MOV.S and NEG.S (R216, R217, R229 to R231) move raw bits: ABS.S clears and NEG.S flips the sign bit, of a
NaN too. CFC1 from register 31 returns RM and C as stored and takes one fresh draw for the other bits, CFC1 from register 0
returns `FCR0_VALUE`, and CTC1 to register 31 stores the word (R32, R33, R218, R219). The number of the draw is the model's
(notes/assumptions/7). -/
def Obligations.FpuMoves : Prop :=
  ∀ (s : State) (rt : Reg) (fs fd : FReg),
    (∃ t, exec (.mfc1 rt fs) s = .next t ∧ WritesReg s t rt (s.f fs)) ∧
    (∃ t, exec (.mtc1 rt fs) s = .next t ∧ WritesFpr s t fs (s.x rt)) ∧
    (∃ t, exec (.movS fd fs) s = .next t ∧ WritesFpr s t fd (s.f fs)) ∧
    (∃ t v, exec (.absS fd fs) s = .next t ∧
      (∀ i, i < 32 → v.getLsbD i = (decide (i < 31) && (s.f fs).getLsbD i)) ∧ WritesFpr s t fd v) ∧
    (∃ t v, exec (.negS fd fs) s = .next t ∧
      (∀ i, i < 32 → v.getLsbD i = (decide (i = 31) != (s.f fs).getLsbD i)) ∧ WritesFpr s t fd v) ∧
    (∃ t v, exec (.cfc1 rt 31#5) s = .next t ∧ v.extractLsb' 0 2 = s.cpu.fcr31.extractLsb' 0 2 ∧
      v.getLsbD 23 = s.cpu.fcr31.getLsbD 23 ∧
      (∀ i, 2 ≤ i → i < 32 → i ≠ 23 → v.getLsbD i = (Config.draw s.draws).getLsbD i) ∧
      t.draws = s.draws + 1 ∧ WritesReg s t rt v) ∧
    (∃ t, exec (.cfc1 rt 0#5) s = .next t ∧ WritesReg s t rt s.par.fcr0) ∧
    (∃ t, exec (.ctc1 rt 31#5) s = .next t ∧ WritesFcr31 s t (s.x rt))

/-- FPU control registers other than 0 and 31 do not exist, and register 0 cannot be written (R34). -/
def Obligations.UnsupportedFcrHalts : Prop :=
  ∀ (s : State) (rt : Reg) (fs : BitVec 5),
    (fs ≠ 0#5 → fs ≠ 31#5 → ∃ t, exec (.cfc1 rt fs) s = .next t ∧ Halts s t (.unsupportedFcr fs)) ∧
    (fs ≠ 31#5 → ∃ t, exec (.ctc1 rt fs) s = .next t ∧ Halts s t (.unsupportedFcr fs))

/-- ADD.S, SUB.S, MUL.S, DIV.S, SQRT.S and CVT.S.W write fd and nothing else under every `FP_ARITH`, and no subnormal under
`FP_FTZ = flush` (R215, R224 to R228, R234); under the reference, the NaN, infinity and zero cases that R215 lists. `a` and `b`
are the operands as `FP_FTZ` reads them. That another arithmetic's results are flushed too is the model's reading
(notes/assumptions/35). -/
def Obligations.FpArithmeticSpecials : Prop :=
  ∀ (s : State) (fd fs ft : FReg), let a := s.fBits fs; let b := s.fBits ft
    ∃ ta tb tc td te tf va vb vc vd ve vf,
      exec (.addS fd fs ft) s = .next ta ∧ WritesFpr s ta fd va ∧
      exec (.subS fd fs ft) s = .next tb ∧ WritesFpr s tb fd vb ∧
      exec (.mulS fd fs ft) s = .next tc ∧ WritesFpr s tc fd vc ∧
      exec (.divS fd fs ft) s = .next td ∧ WritesFpr s td fd vd ∧
      exec (.sqrtS fd fs) s = .next te ∧ WritesFpr s te fd ve ∧
      exec (.cvtSW fd fs) s = .next tf ∧ WritesFpr s tf fd vf ∧
      (s.par.fpFtz = .flush → ∀ v ∈ [a, b, va, vb, vc, vd, ve, vf], v.extractLsb' 23 8 = 0#8 → fpIsZero v) ∧
      (s.par.fpArith = .ieeeNearestEven →
        (fpIsNan a ∨ fpIsNan b → fpIsNan va ∧ fpIsNan vb ∧ fpIsNan vc ∧ fpIsNan vd) ∧
        (fpIsInf a → fpIsInf b → fpIsNan vd ∧ fpIsInf vc ∧ vc.msb = (a.msb != b.msb) ∧
          (if a.msb = b.msb then va = a ∧ fpIsNan vb else fpIsNan va ∧ vb = a)) ∧
        (∀ y, fpIsInf a → fpValue b = some y → va = a ∧ vb = a ∧ fpIsInf vd ∧ vd.msb = (a.msb != b.msb) ∧
          (fpIsZero b → fpIsNan vc) ∧ (¬ fpIsZero b → fpIsInf vc ∧ vc.msb = (a.msb != b.msb))) ∧
        (∀ x, fpValue a = some x → fpIsInf b → va = b ∧ fpIsInf vb ∧ vb.msb = (!b.msb) ∧
          fpIsZero vd ∧ vd.msb = (a.msb != b.msb) ∧
          (fpIsZero a → fpIsNan vc) ∧ (¬ fpIsZero a → fpIsInf vc ∧ vc.msb = (a.msb != b.msb))) ∧
        (fpIsZero a → fpIsZero b → fpIsNan vd) ∧
        (∀ x, fpValue a = some x → ¬ fpIsZero a → fpIsZero b → fpIsInf vd ∧ vd.msb = (a.msb != b.msb)) ∧
        (fpIsNan a → fpIsNan ve) ∧ (a.msb = true → ¬ fpIsZero a → fpIsNan ve) ∧
        (fpIsZero a ∨ (fpIsInf a ∧ a.msb = false) → ve = a))

/-- Under the reference arithmetic, ADD.S, SUB.S, MUL.S, DIV.S and SQRT.S of finite operands, and CVT.S.W of every word, give the
exact result rounded to nearest, ties to even, an infinity of its sign past the overflow threshold, and then what `FP_FTZ` makes of
it (R215, R224 to R228, R234). `x` and `y` are the operands as `FP_FTZ` reads them. -/
def Obligations.FpResultsRounded : Prop :=
  ∀ (s : State) (fd fs ft : FReg), s.par.fpArith = .ieeeNearestEven →
    let a := (s.fBits fs).msb; let b := (s.fBits ft).msb
    let gives := fun (i : Instr) (z : ℝ) (neg : Bool) =>
      ∃ t w, exec i s = .next t ∧ FpRounded w z neg ∧ WritesFpr s t fd (fpFlush s.par.fpFtz w)
    gives (.cvtSW fd fs) (s.f fs).toInt false ∧
    (∀ x, fpValue (s.fBits fs) = some x → 0 ≤ x → gives (.sqrtS fd fs) (Real.sqrt x) a) ∧
    ∀ x y, fpValue (s.fBits fs) = some x → fpValue (s.fBits ft) = some y →
      gives (.addS fd fs ft) (x + y) (a && b) ∧
      gives (.subS fd fs ft) (x - y) (a && !b) ∧
      gives (.mulS fd fs ft) (x * y) (a != b) ∧
      (y ≠ 0 → gives (.divS fd fs ft) (x / y) (a != b))

/-- The word conversions (R30, R232, R233, R235 to R239). A finite number goes to the integer that the mode gives, clamped as
`CVT_RANGE_RESULT` says where it does not fit; an infinity to INT_MAX or INT_MIN, a NaN as `CVT_NAN_RESULT` says. CVT.W.S takes
its mode from FCR31.RM, the others do not read it. -/
def Obligations.FpToWord : Prop :=
  ∀ (s : State) (fd fs : FReg),
    ∀ c ∈ [(Instr.roundWS fd fs, RoundMode.rn), (.truncWS fd fs, .rz), (.ceilWS fd fs, .rp), (.floorWS fd fs, .rm),
           (.cvtWS fd fs, if s.cpu.fcr31.toNat % 4 = 0 then .rn else if s.cpu.fcr31.toNat % 4 = 1 then .rz
             else if s.cpu.fcr31.toNat % 4 = 2 then .rp else .rm)],
      (∀ z, fpValue (s.f fs) = some z →
        ∃ t v n, exec c.1 s = .next t ∧ roundsTo c.2 z n ∧ WritesFpr s t fd v ∧
          (-2 ^ 31 ≤ n → n < 2 ^ 31 → v.toInt = n) ∧
          (2 ^ 31 ≤ n → v = 0x7FFFFFFF#32) ∧
          (n < -2 ^ 31 → v = if s.par.cvtRange = .saturate then 0x80000000#32 else 0x7FFFFFFF#32)) ∧
      (fpIsNan (s.f fs) → ∃ t, exec c.1 s = .next t ∧
        WritesFpr s t fd (if s.par.cvtNan = .intMax then 0x7FFFFFFF#32 else 0x80000000#32)) ∧
      (fpIsInf (s.f fs) → ∃ t, exec c.1 s = .next t ∧
        WritesFpr s t fd (if (s.f fs).msb then 0x80000000#32 else 0x7FFFFFFF#32))

/-- The sixteen compares (R240 to R257): C is set by the bits of the condition number that match the relation of the operands,
with a NaN unordered to everything and +0 equal to -0, and no other bit of FCR31 changes. -/
def Obligations.FpCompares : Prop :=
  ∀ (s : State) (fs ft : FReg),
    ∀ c ∈ [(Instr.cF fs ft, 0#4), (.cUn fs ft, 1#4), (.cEq fs ft, 2#4), (.cUeq fs ft, 3#4), (.cOlt fs ft, 4#4),
           (.cUlt fs ft, 5#4), (.cOle fs ft, 6#4), (.cUle fs ft, 7#4), (.cSf fs ft, 8#4), (.cNgle fs ft, 9#4),
           (.cSeq fs ft, 10#4), (.cNgl fs ft, 11#4), (.cLt fs ft, 12#4), (.cNge fs ft, 13#4), (.cLe fs ft, 14#4),
           (.cNgt fs ft, 15#4)],
      ∃ t v, exec c.1 s = .next t ∧ WritesFcr31 s t v ∧
        (∀ i, i < 32 → i ≠ 23 → v.getLsbD i = s.cpu.fcr31.getLsbD i) ∧
        (v.getLsbD 23 = true ↔
          (c.2.getLsbD 2 = true ∧ fpIsLess (s.f fs) (s.f ft)) ∨ (c.2.getLsbD 1 = true ∧ fpIsEqual (s.f fs) (s.f ft)) ∨
          (c.2.getLsbD 0 = true ∧ (fpIsNan (s.f fs) ∨ fpIsNan (s.f ft))))

/-! ## System instructions and refused groups (spec/47_system.md) -/

/-- SYSCALL hands control to the kernel agent and BREAK halts, in a delay slot too (R258, R259, R286); CACHE and SYNC do nothing,
whatever their operands (R189, R260). Of all four the pc advances and nothing else changes. -/
def Obligations.SystemInstructions : Prop :=
  ∀ (s : State) (code : BitVec 20) (op stype : BitVec 5) (base : Reg) (off : BitVec 16),
    (∃ t, exec (.syscall code) s = .next t ∧ StopsAs s t (.inHost (.hleCall code))) ∧
    (∃ t, exec (.brk code) s = .next t ∧ Halts s t (.break_ code s.cpu.pc)) ∧
    (∃ t, exec (.cache op base off) s = .next t ∧ WritesReg s t 0#5 0#32) ∧
    (∃ t, exec (.sync stype) s = .next t ∧ WritesReg s t 0#5 0#32)

/-- Every word of the eighteen refused groups is refused, with the pc advanced and nothing else changed (R261 to R279, R283). -/
def Obligations.RefusedGroups : Prop :=
  ∀ (s : State) (w : Word),
    ∀ c ∈ [(Instr.cop0 w, RefusedGroup.cop0), (.cop2 w, .cop2), (.special2 w, .special2), (.vfpu0 w, .vfpu0),
           (.vfpu1 w, .vfpu1), (.vfpu3 w, .vfpu3), (.lvS w, .lvS), (.vfpu4 w, .vfpu4), (.lvlrQ w, .lvlrQ), (.lvQ w, .lvQ),
           (.vfpu5 w, .vfpu5), (.svS w, .svS), (.vfpu6 w, .vfpu6), (.svlrQ w, .svlrQ), (.svQ w, .svQ), (.vfpu7 w, .vfpu7),
           (.ll w, .ll), (.sc w, .sc)],
      ∃ t, exec c.1 s = .refused (.refusedGroup c.2 w s.cpu.pc t) ∧ StopsAs s t (.refused c.2 w s.cpu.pc)

/-! ## The whole machine -/

/-- Every instruction that halts leaves the state before the step with only the pc advance applied (R282), whatever the
instruction and the reason. -/
def Obligations.HaltLeavesOnlyTheAdvance : Prop :=
  ∀ (i : Instr) (s t : State) (r : HaltReason), s.run = .running → exec i s = .next t → t.run = .halted r → Halts s t r

/-- HI and LO are written only by the multiply, divide, MTHI and MTLO instructions, FCR31 only by CTC1 and the compares, and
memory only by the six stores; no instruction touches the kernel's state (R23, R31, R64, R344). -/
def Obligations.OnlyNamedInstructionsWrite : Prop :=
  ∀ (i : Instr) (s t : State), exec i s = .next t →
    (mayWriteHiLo i = false → t.cpu.hi = s.cpu.hi ∧ t.cpu.lo = s.cpu.lo) ∧
    (mayWriteFcr31 i = false → t.cpu.fcr31 = s.cpu.fcr31) ∧
    (mayStore i = false → (∀ a, Memory.read t.mem a = Memory.read s.mem a) ∧ t.gpu = s.gpu) ∧
    t.kernel = s.kernel ∧ t.par = s.par ∧ t.cycles = s.cycles

/-- No admitted instruction reads or writes the vector register file or its prefixes (R35, R36): with another vector unit it does
the same, and carries that vector unit through. -/
def Obligations.VectorUnitNotReached : Prop :=
  ∀ (i : Instr) (s t : State) (v : Vector Word 128) (p : Vpfx), exec i s = .next t →
    t.cpu.vpr = s.cpu.vpr ∧ t.cpu.vpfx = s.cpu.vpfx ∧ exec i (s.withVector v p) = .next (t.withVector v p)

/-- Every instruction that is not a control transfer moves the pc to `next_pc` and `next_pc` on by four, so in straight-line code
it leaves `pc = A + 4` and `next_pc = A + 8` (R25, and what R27 derives from it). -/
def Obligations.StraightLinePc : Prop :=
  ∀ (i : Instr) (s t : State), transfersControl i = false → exec i s = .next t →
    Advanced s t ∧ (s.cpu.nextPc = s.cpu.pc + 4#32 → t.cpu.pc = s.cpu.pc + 4#32 ∧ t.cpu.nextPc = s.cpu.pc + 8#32)

/-- The canonical form of memory is an invariant of every step: of an instruction, a host call, a callback return, a GPU command,
an event and the boot (R54, notes/assumptions/4: the form is the model's). -/
def Obligations.MemoryStaysCanonical : Prop :=
  ∀ s t : State, s.memWf = true → step s = .next t → t.memWf = true

/-- The scheduler's invariant is kept by every step (R309, R311): a thread stands in level `p` of the ready queue exactly when it
is READY at priority `p`, and at most once; a thread that is RUN is the current one. -/
def Obligations.ReadyQueueInvariant : Prop :=
  ∀ s t : State, SchedWf s.kernel → step s = .next t → SchedWf t.kernel

/-- No step takes `cycles` back, changes a parameter, or lowers the counter of the draws taken. The counter is the model's
(notes/assumptions/7), and so is that the parameters are a field of the state (notes/assumptions/5). -/
def Obligations.TimeNeverGoesBack : Prop :=
  ∀ s t : State, step s = .next t → s.cycles ≤ t.cycles ∧ s.draws ≤ t.draws ∧ t.par = s.par

/-- The machine at creation (R42, R306, R353, R401, R404): the CPU does not step, `ds` is false, time is 0, the kernel's tables
and the GPU's queue are empty, the GPU's registers are 0, memory is in canonical form and the scheduler's
invariant holds. The other registers' values are the
model's (notes/assumptions/3, 4) and are not stated. -/
def Obligations.ResetState : Prop :=
  State.reset.run = .notStepping ∧ State.reset.cpu.ds = false ∧ State.reset.cycles = 0 ∧
  (∀ r : Reg, r = 0#5 → State.reset.x r = 0#32) ∧
  State.reset.kernel.objects = [] ∧ State.reset.kernel.uidNext = 1 ∧ State.reset.kernel.current = none ∧
  (∀ p : Fin 128, State.reset.kernel.ready[p] = []) ∧ State.reset.kernel.events = [] ∧
  (∀ n : Fin 256, State.reset.gpu.reg[n] = 0#24) ∧ (∀ n : Fin 1024, State.reset.gpu.clut[n] = 0#8) ∧
  State.reset.gpu.queue = [] ∧ State.reset.gpu.texCache = [] ∧ State.reset.memWf = true ∧
  SchedWf State.reset.kernel

/-! ## The kernel agent (spec/60_exceptions.md, spec/61_kernel_scheduler.md) -/

/-- A host call to an import index with no entry (R287, R288), with no event due, none that has requested `Reschedule()`, and a
current thread that is RUN: the call returns 0 in v0, poisons `x[4]` to `x[11]` with fresh draws, changes no other register, and
the same thread goes on (R286 step 6). The numbers of the draws are the model's (notes/assumptions/7). -/
def Obligations.MissingImportReturnsZero : Prop :=
  ∀ (s : State) (code : BitVec 20) (c : Nat) (th : Thread), s.run = .inHost (.hleCall code) →
    s.kernel.imports[code.toNat]? = none → s.kernel.closing = false → s.dueEvent = none →
    s.kernel.reschedRequested = false → s.kernel.current = some c → s.kernel.thread? c = some th → th.state = .run →
    ∃ t, step s = .next t ∧ t.run = .running ∧ t.x 2#5 = 0#32 ∧
      (∀ r : Reg, r ≠ 2#5 → r.toNat < 4 ∨ 11 < r.toNat → t.x r = s.x r) ∧
      (∀ k, k < 8 → ∃ n, s.draws ≤ n ∧ n < t.draws ∧ t.x (BitVec.ofNat 5 (4 + k)) = Config.draw n) ∧
      t.cpu.pc = s.cpu.pc ∧ t.cpu.nextPc = s.cpu.nextPc ∧ t.cpu.hi = s.cpu.hi ∧ t.cpu.lo = s.cpu.lo ∧ SameFpu s t ∧
      SameMemory s t ∧ t.kernel = s.kernel ∧ t.cycles = s.cycles

/-- A step at `CALLBACK_RETURN_ADDR` fetches nothing (R284, R290): with a callback in flight it hands over to the kernel agent
with nothing else changed, and with none it halts (the halt's state is notes/assumptions/8). No event is due and none has
requested `Reschedule()` (notes/assumptions/9). -/
def Obligations.CallbackReturnAddress : Prop :=
  ∀ s : State, s.run = .running → s.dueEvent = none → s.kernel.reschedRequested = false →
    s.cpu.pc = s.par.callbackReturnAddr →
    (∀ c t, s.kernel.current = some c → s.kernel.thread? c = some t → t.callbackStack ≠ [] →
      step s = .next { s with run := .inHost .callbackReturn }) ∧
    ((s.kernel.current = none ∨ ∃ c t, s.kernel.current = some c ∧ s.kernel.thread? c = some t ∧ t.callbackStack = []) →
      ∃ t, step s = .next t ∧ Halts s t (.strayCallbackReturn s.cpu.pc))

/-- Callback injection (R327): with the head of the pending callbacks injectable, the count, the argument, the common pointer and
the return address go to a0, a1, a2 and ra, the notify pair is consumed, and control goes to the entry; no other register, of the
vector unit either, and no byte of memory changes, and no other thread. The thread keeps the whole context it had, with the wait it
was in, if any (R329, R330): its reason and its outcome cell. That the wait moves to the saved pair, so that the thread itself has
none while the callback runs, is the model's (notes/assumptions/20). -/
def Obligations.CallbackInjection : Prop :=
  ∀ (s : State) (u cb : Nat) (rest : List Nat) (th : Thread) (c : Callback), s.kernel.thread? u = some th →
    th.callbacksPending = cb :: rest → th.callbacksRunning = [] ∨ th.reentrant = true → s.kernel.callback? cb = some c →
    (s.switchState u).x 4#5 = c.notifyCount ∧ (s.switchState u).x 5#5 = c.notifyArg ∧
    (s.switchState u).x 6#5 = c.common ∧ (s.switchState u).x 31#5 = s.par.callbackReturnAddr ∧
    (∀ r : Reg, r ∉ [4#5, 5#5, 6#5, 31#5] → (s.switchState u).x r = s.x r) ∧
    (s.switchState u).cpu.pc = c.entry ∧ (s.switchState u).cpu.nextPc = c.entry + 4#32 ∧
    (s.switchState u).cpu.ds = false ∧ (s.switchState u).cpu.hi = s.cpu.hi ∧ (s.switchState u).cpu.lo = s.cpu.lo ∧
    (s.switchState u).cpu.vpr = s.cpu.vpr ∧ (s.switchState u).cpu.vpfx = s.cpu.vpfx ∧ SameFpu s (s.switchState u) ∧
    SameMemory s (s.switchState u) ∧
    (s.switchState u).kernel.thread? u = some { th with
      callbacksPending := rest, callbacksRunning := cb :: th.callbacksRunning, waitReason := none, waitObject := none
      callbackStack := (s.cpu, match th.waitObject with
        | none => none
        | some w => some { reason := th.waitReason, waitObject := w }) :: th.callbackStack } ∧
    (∀ v, v ≠ u → (s.switchState u).kernel.thread? v = s.kernel.thread? v) ∧
    (∃ c', (s.switchState u).kernel.callback? cb = some c' ∧ c'.notifyCount = 0#32 ∧ c'.notifyArg = 0#32)

/-- The return from a callback (R328) that interrupted no wait, of a thread that is RUN, with nothing notified since, no event due
and no `Reschedule()` requested: the step restores the whole context that the injection saved, takes it off the stack, and the
thread goes on with no callback running. -/
def Obligations.CallbackReturnRestores : Prop :=
  ∀ (s : State) (u : Nat) (th : Thread) (saved : Context) (cb : Nat), s.run = .inHost .callbackReturn →
    s.kernel.current = some u → s.kernel.thread? u = some th → th.state = .run → th.callbackStack = [(saved, none)] →
    th.callbacksRunning = [cb] → th.callbacksPending = [] →
    (∀ d c, s.kernel.callback? d = some c → c.notifyCount = 0#32) → s.dueEvent = none →
    s.kernel.reschedRequested = false → s.kernel.closing = false →
    ∃ t, step s = .next t ∧ t.cpu = saved ∧ t.run = .running ∧ t.kernel.current = some u ∧
      (∃ th', t.kernel.thread? u = some th' ∧ th'.callbackStack = [] ∧ th'.callbacksRunning = [] ∧
        th'.callbacksPending = []) ∧ t.mem = s.mem ∧ t.cycles = s.cycles

/-- The context switch (R318, R38) to another thread that has no callback and no finished wait to deliver: its whole context
becomes the live one and it becomes RUN and current; the outgoing thread holds the whole context that was live. -/
def Obligations.ContextSwitch : Prop :=
  ∀ (s : State) (c n : Nat) (tc tn : Thread) (yield : Bool), c ≠ n → s.kernel.current = some c →
    s.kernel.thread? c = some tc → s.kernel.thread? n = some tn → tn.callbacksPending = [] → tn.waitObject = none →
    (s.switchTo n yield).cpu = tn.context ∧ (s.switchTo n yield).run = .running ∧
    (s.switchTo n yield).kernel.current = some n ∧
    (∃ t, (s.switchTo n yield).kernel.thread? n = some t ∧ t.state = .run) ∧
    (∃ t, (s.switchTo n yield).kernel.thread? c = some t ∧ t.context = s.cpu ∧
      t.state = if tc.state = .run then .ready else tc.state)

/-- The scan of `Reschedule` finds the head of the least non-empty level of the ready queue (R311, R313 step 2). -/
def Obligations.HighestPriorityFirst : Prop :=
  ∀ k : Kernel,
    (∀ n, k.firstReady = some n ↔
      ∃ p : Fin 128, (∃ rest, k.ready[p] = n :: rest) ∧ ∀ q : Fin 128, q < p → k.ready[q] = []) ∧
    (k.firstReady = none ↔ ∀ p : Fin 128, k.ready[p] = [])

/-- UID allocation (R306): the UID is a free slot between 1 and `UID_SLOTS - 1`, never 0; it fails only when all are full; and the
object is then found under it, with every other object where it was. -/
def Obligations.UidAllocation : Prop :=
  ∀ (k : Kernel) (slots : Nat) (o : KernelObject),
    (∀ u k', k.create slots o = some (u, k') →
      0 < u ∧ u < slots ∧ k.lookup u = none ∧ k'.lookup u = some o ∧ ∀ v, v ≠ u → k'.lookup v = k.lookup v) ∧
    (k.create slots o = none → ∀ u, 0 < u → u < slots → (k.lookup u).isSome = true)

/-- The wake scan of a semaphore (R331): the count it takes away is what the granted waiters needed, every record is granted or
stays, in order; under `head_blocks` the granted are a prefix and the first that stays needs more than is left; under `skip` each
record is granted exactly when it needs no more than is left when the scan reaches it, so none that stays could be granted by what
is left at the end. -/
def Obligations.SemaphoreScan : Prop :=
  ∀ (policy : SemaWakePolicy) (count : Nat) (q : List WaitRecord),
    let r := semaphoreScan policy count q
    count = r.1 + (r.2.2.map WaitRecord.need).sum ∧
    (∀ x, q.count x = r.2.1.count x + r.2.2.count x) ∧ r.2.1.Sublist q ∧ r.2.2.Sublist q ∧
    (policy = .headBlocks → q = r.2.2 ++ r.2.1 ∧ ∀ x rest, r.2.1 = x :: rest → r.1 < x.need) ∧
    (policy = .skip → (∀ x ∈ r.2.1, r.1 < x.need) ∧
      ∀ before x after, q = before ++ x :: after →
        let p := semaphoreScan policy count before
        (x.need ≤ p.1 → ∃ stay granted, r.2.1 = p.2.1 ++ stay ∧ r.2.2 = p.2.2 ++ x :: granted ∧
          semaphoreScan policy (p.1 - x.need) after = (r.1, stay, granted)) ∧
        (p.1 < x.need → ∃ stay granted, r.2.1 = p.2.1 ++ x :: stay ∧ r.2.2 = p.2.2 ++ granted ∧
          semaphoreScan policy p.1 after = (r.1, stay, granted)))

/-- The allocator (R337, R339, R340): on a block list that covers its range, an allocation of either kind and every free that
succeeds keep the invariants of R337, and the free of the address just allocated succeeds; on an allocator of one free block,
`Alloc` and `Free` restore it. An allocated block always has a name (notes/assumptions/42). -/
def Obligations.AllocatorInvariants : Prop :=
  ∀ (p : Params) (a b : Allocator) (size align addr : Nat) (name : String) (high pad : Bool),
    (a.wf = true → a.alloc p size name align high pad = some (addr, b) → b.wf = true ∧ (b.free addr).isSome) ∧
    (a.wf = true → a.allocAt addr size name = some b → b.wf = true ∧ (b.free addr).isSome) ∧
    (∀ x c, a.wf = true → a.free x = some c → c.wf = true) ∧
    (∀ start total, 0 < total → a = Allocator.create start total → a.alloc p size name align high pad = some (addr, b) →
      b.free addr = some a)

/-- Mutexes (R333, R334), for the current thread `c`. Lock: a free mutex is taken, the owner's count rises, and anyone else waits
with a record at its place in the queue. Unlock: refused to all but the owner and above the count; at 0 the mutex goes to the
head of the queue, which is woken, or to no one. A wait that allows no callbacks and has no timeout is stated. The number of a
wait's outcome cell is the model's (notes/assumptions/20). -/
def Obligations.MutexLockAndUnlock : Prop :=
  ∀ (s : State) (uid n c : Nat) (x : Mutex) (th : Thread) (tp : Word) (allow : Bool), s.kernel.mutex? uid = some x →
    s.kernel.current = some c → s.kernel.thread? c = some th →
    (x.lockCount = 0 → ∃ t, s.lockMutex uid x n tp allow = .ok t ∧
      t.kernel.mutex? uid = some { x with owner := some c, lockCount := n } ∧
      ∀ u, t.kernel.thread? u = s.kernel.thread? u) ∧
    (x.lockCount ≠ 0 → x.owner = some c → ∃ t, s.lockMutex uid x n tp allow = .ok t ∧
      t.kernel.mutex? uid = some { x with lockCount := x.lockCount + n } ∧ ∀ u, t.kernel.thread? u = s.kernel.thread? u) ∧
    (x.lockCount ≠ 0 → x.owner ≠ some c → ∃ t, s.lockMutex uid x n 0#32 false = .ok t ∧
      (∃ th', t.kernel.thread? c = some th' ∧ th'.state = .wait ∧ th'.waitReason = some (.mutex uid) ∧
        th'.waitObject = some s.kernel.nextWaitObject) ∧
      ∃ x', t.kernel.mutex? uid = some x' ∧ x'.owner = x.owner ∧ x'.lockCount = x.lockCount ∧
        x'.queue.Perm (x.queue ++
          [{ thread := c, waitObject := s.kernel.nextWaitObject, timer := none, cond := .locks n }]) ∧
        (x.priorityOrdered = false → x'.queue.take x.queue.length = x.queue) ∧
        (x.priorityOrdered = true →
          x.queue.Pairwise (fun r r' => s.kernel.priorityOf r.thread ≤ s.kernel.priorityOf r'.thread) →
          x'.queue.Pairwise fun r r' => s.kernel.priorityOf r.thread ≤ s.kernel.priorityOf r'.thread)) ∧
    (x.owner ≠ some c ∨ x.lockCount < n → s.unlockMutex uid x n = none) ∧
    (x.owner = some c → n < x.lockCount → ∃ t, s.unlockMutex uid x n = some t ∧
      t.kernel.mutex? uid = some { x with lockCount := x.lockCount - n } ∧ ∀ u, t.kernel.thread? u = s.kernel.thread? u) ∧
    (x.owner = some c → n = x.lockCount → x.queue = [] → ∃ t, s.unlockMutex uid x n = some t ∧
      t.kernel.mutex? uid = some { x with owner := none, lockCount := 0 }) ∧
    (∀ r rest, x.owner = some c → n = x.lockCount → x.queue = r :: rest → ∃ t, s.unlockMutex uid x n = some t ∧
      t.kernel.mutex? uid = some { x with owner := some r.thread, lockCount := r.locks, queue := rest } ∧
      ∀ w, s.kernel.thread? r.thread = some w → w.waitObject = some r.waitObject → w.state = .wait →
        ∃ w', t.kernel.thread? r.thread = some w' ∧ w'.state = .ready ∧ w'.waitReason = none)

/-- Event flags (R335, R336). The wake scan: every record is granted or stays, in order; a granted one matched the pattern it saw,
which is what was left of the pattern before, and takes its bits out of it exactly when it asks for that; no record that stays
matches the pattern after; and the scan only clears bits. A wait that matches succeeds at once, with the old pattern in its output
cell if it has one and the matched bits cleared if it asks for that; a wait on no bits is an invalid argument. Set leaves what the
scan of the pattern with the new bits leaves, makes every thread READY whose wait it grants, and writes to output cells only; cells
that do not overlap hold the pattern that their record saw. Clear keeps the bits given. That an output pointer of 0 gives no cell is
the model's (notes/assumptions/42), and so are the argument registers of the call (notes/assumptions/10). -/
def Obligations.EventFlagScanAndWait : Prop :=
  (∀ (pattern : Word) (q : List WaitRecord), let r := flagScan pattern q
    (∀ x, q.count x = r.2.1.count x + (r.2.2.map Prod.fst).count x) ∧ r.2.1.Sublist q ∧
    (r.2.2.map Prod.fst).Sublist q ∧ r.1 &&& pattern = r.1 ∧
    (∀ e ∈ r.2.2, e.2 &&& pattern = e.2 ∧
      ∃ bits mode clear out, e.1.cond = .bits bits mode clear out ∧ flagFits e.2 bits mode) ∧
    (∀ x ∈ r.2.1, ∀ bits mode clear out, x.cond = .bits bits mode clear out → ¬ flagFits r.1 bits mode) ∧
    ∀ before x after bits mode clear out, q = before ++ x :: after → x.cond = .bits bits mode clear out →
      let p := flagScan pattern before
      (flagFits p.1 bits mode → ∃ stay granted, r.2.1 = p.2.1 ++ stay ∧ r.2.2 = p.2.2 ++ (x, p.1) :: granted ∧
        flagScan (if clear then p.1 &&& ~~~bits else p.1) after = (r.1, stay, granted)) ∧
      (¬ flagFits p.1 bits mode → ∃ stay granted, r.2.1 = p.2.1 ++ x :: stay ∧ r.2.2 = p.2.2 ++ granted ∧
        flagScan p.1 after = (r.1, stay, granted))) ∧
  (∀ (s : State) (x : EventFlag), s.kernel.eventFlag? (s.argNat 0) = some x → s.arg 1 = 0#32 →
    runCall .waitEventFlag s = .ok (.done s s.par.status.invalidArgument)) ∧
  ∀ (s : State) (uid : Nat) (x : EventFlag), s.kernel.eventFlag? uid = some x →
    (∀ (pa : Nat) (bits out tp : Word) (mode : FlagMode) (clear allow : Bool), bits ≠ 0#32 →
      flagFits x.pattern bits mode → s.memWf = true → out = 0#32 ∨ dataAddress s.par out 4 = .ok pa →
      ∃ t, s.waitEventFlag uid x bits mode clear out tp allow = .ok t ∧
        t.kernel.eventFlag? uid = some { x with pattern := if clear then x.pattern &&& ~~~bits else x.pattern } ∧
        (∀ u, t.kernel.thread? u = s.kernel.thread? u) ∧ (out = 0#32 → t.mem = s.mem) ∧
        (out ≠ 0#32 → Memory.word t.mem pa = x.pattern)) ∧
    (∀ bits, (s.clearEventFlag uid x bits).kernel.eventFlag? uid = some { x with pattern := x.pattern &&& bits }) ∧
    ∀ (bits : Word) (pa : WaitRecord → Nat), let r := flagScan (x.pattern ||| bits) x.queue
      s.memWf = true → (∀ e ∈ r.2.2, e.1.out = 0#32 ∨ dataAddress s.par e.1.out 4 = .ok (pa e.1)) →
      ∃ t, s.setEventFlag uid x bits = .ok t ∧
        t.kernel.eventFlag? uid = some { x with pattern := r.1, queue := r.2.1 } ∧
        (∀ e ∈ r.2.2, ∀ w, s.kernel.thread? e.1.thread = some w → w.waitObject = some e.1.waitObject → w.state = .wait →
          ∃ w', t.kernel.thread? e.1.thread = some w' ∧ w'.state = .ready ∧ w'.waitReason = none) ∧
        (∀ u, (∀ e ∈ r.2.2, e.1.thread ≠ u) → t.kernel.thread? u = s.kernel.thread? u) ∧
        (∀ a, (∀ e ∈ r.2.2, e.1.out ≠ 0#32 → a < pa e.1 ∨ pa e.1 + 4 ≤ a) → Memory.read t.mem a = Memory.read s.mem a) ∧
        (r.2.2.Pairwise (fun e d => e.1.out = 0#32 ∨ d.1.out = 0#32 ∨ pa e.1 + 4 ≤ pa d.1 ∨ pa d.1 + 4 ≤ pa e.1) →
          ∀ e ∈ r.2.2, e.1.out ≠ 0#32 → Memory.word t.mem (pa e.1) = e.2)

/-- A wait timeout that fires (R323), of a thread that waits on a semaphore or a mutex: the event goes, the guest's timeout cell
becomes 0 and no other byte changes, the wait ends with the timeout status, its record leaves every queue, the thread becomes
READY (or SUSPEND, where it was suspended), and `Reschedule()` is requested. -/
def Obligations.TimeoutFires : Prop :=
  ∀ (s : State) (e : Event) (u w p pa : Nat) (cell : Word) (reason : WaitReason) (th : Thread) (o : WaitObject),
    e.action = .waitTimeout u w cell reason → reason = .semaphore p ∨ reason = .mutex p → s.memWf = true →
    s.kernel.thread? u = some th → th.waitObject = some w → s.kernel.waitObject? w = some o →
    dataAddress s.par cell 4 = .ok pa →
    (∀ d ∈ (s.fireEvent e).kernel.events, d.handle ≠ e.handle) ∧
    (∀ k, k < 4 → Memory.read (s.fireEvent e).mem (pa + k) = 0#8) ∧
    (∀ a, a < pa ∨ pa + 4 ≤ a → Memory.read (s.fireEvent e).mem a = Memory.read s.mem a) ∧
    (s.fireEvent e).kernel.waitObject? w = some { ended := true, result := some s.par.status.timeout } ∧
    (∀ v x, (s.fireEvent e).kernel.lookup v = some x → ∀ r ∈ x.payload.queue, r.waitObject ≠ w) ∧
    (∃ th', (s.fireEvent e).kernel.thread? u = some th' ∧ th'.waitReason = none ∧ th'.waitAllowsCallbacks = false ∧
      (th.state = .wait → th'.state = .ready ∧ u ∈ (s.fireEvent e).kernel.ready[th'.priority]) ∧
      (th.state = .waitSuspend → th'.state = .suspend)) ∧
    (s.fireEvent e).kernel.reschedRequested = true

/-- Priority change (R312): the thread's priority becomes `p` and its initial priority stays; a READY thread moves to the tail of
its new level and stands in no other; of a thread in another state no level changes; a priority-ordered wait queue that holds it
is sorted again, and every queue keeps its records; no other thread changes. -/
def Obligations.PriorityChange : Prop :=
  ∀ (s : State) (u : Nat) (t : Thread) (p : Fin 128), SchedWf s.kernel → s.kernel.thread? u = some t →
    let k := (s.changePriority u t p).kernel
    k.thread? u = some { t with priority := p } ∧ (∀ v, v ≠ u → k.thread? v = s.kernel.thread? v) ∧
    (t.state = .ready → (∃ l, k.ready[p] = l ++ [u] ∧ u ∉ l) ∧ (∀ q : Fin 128, q ≠ p → u ∉ k.ready[q]) ∧
      ∀ q : Fin 128, k.ready[q].filter (fun v => v != u) = s.kernel.ready[q].filter (fun v => v != u)) ∧
    (t.state ≠ .ready → ∀ q : Fin 128, k.ready[q] = s.kernel.ready[q]) ∧
    ∀ v o, s.kernel.lookup v = some o → ∃ o', k.lookup v = some o' ∧ o'.payload.queue.Perm o.payload.queue ∧
      (o.payload.priorityOrdered = true → (∃ r ∈ o.payload.queue, r.thread = u) →
        o'.payload.queue.Pairwise fun r r' => k.priorityOf r.thread ≤ k.priorityOf r'.thread)

/-- The event that fires first (R298) is pending, none is due before it, and of those due with it none was scheduled before it; an
event that is not due yet does not fire. A step between instructions, host calls and callback returns with an event due fires it:
that the firing is a step of its own, and that none happens once the process is closing, is the model's (notes/assumptions/9). -/
def Obligations.EventOrder : Prop :=
  (∀ (es : List Event) (e : Event), firstEvent es = some e →
    ∃ before after, es = before ++ e :: after ∧ (∀ d ∈ before, e.due < d.due) ∧ ∀ d ∈ after, e.due ≤ d.due) ∧
  (∀ s : State, s.kernel.closing = false →
    (∀ e, s.dueEvent = some e → firstEvent s.kernel.events = some e ∧ e.due ≤ s.cycles) ∧
    (s.dueEvent = none → ∀ e ∈ s.kernel.events, s.cycles < e.due)) ∧
  ∀ (s : State) (e : Event), s.dueEvent = some e →
    s.run = .running ∨ (∃ code, s.run = .inHost (.hleCall code)) ∨ s.run = .inHost .callbackReturn ∨
      (s.run = .notStepping ∧ s.loader = none) →
    step s = .next (s.fireEvent e)

/-! ## The GPU agent (spec/62_gpu_pipeline.md) -/

/-- A GPU command writes its 24-bit parameter to `reg[cmd]` and no other entry, and never changes the CPU, the run status or
the kernel (R359, R400); a command that R362 gives no action changes nothing else at all (R361). Under the reference `GE_COMMANDS`
the command is `w[31:24]` and the parameter `w[23:0]`; under another they are what it makes of the word, and a command with actions
of its own (`geOther`) still leaves the CPU, the run status and the kernel alone (notes/assumptions/15). -/
def Obligations.GpuCommandEffects : Prop :=
  ∀ (s : State) (id : Nat) (l : GeList) (w : Word), let c := geCommand s.par w
    (s.par.geCommands = [] → c = (w.extractLsb' 24 8, w.extractLsb' 0 24) ∧ geOther s.par w = none) ∧
    (s.executeCommand id l w).cpu = s.cpu ∧ (s.executeCommand id l w).run = s.run ∧
    (s.executeCommand id l w).kernel = s.kernel ∧
    (geOther s.par w = none →
      ∀ n : Fin 256, (s.executeCommand id l w).gpu.reg[n] = if n.val = c.1.toNat then c.2 else s.gpu.reg[n]) ∧
    (geOther s.par w = none → c.1.toNat ∉ [0x01, 0x02, 0x04, 0x08, 0x0A, 0x0B, 0x0C, 0x0F, 0x13, 0x14, 0x3A, 0x3B, 0x3C, 0x3D, 0x3E,
        0x3F, 0xC4, 0xCB] →
      (s.executeCommand id l w).mem = s.mem ∧ (s.executeCommand id l w).draws = s.draws ∧
      { (s.executeCommand id l w).gpu with reg := s.gpu.reg } = s.gpu.setList id l)

/-- The flow of a display list (R360): JUMP, CALL with room on the stack and without, RET with a frame and without, END, FINISH,
ORIGIN and OFFSET_ADDR, on a list whose `current` is already past the command. `word cmd` is a word that `GE_COMMANDS` reads as
the command `cmd` of R362 with parameter `p` (notes/assumptions/15). -/
def Obligations.GpuListFlow : Prop :=
  ∀ (s : State) (id : Nat) (l : GeList) (p : BitVec 24) (word : BitVec 8 → Word),
    (∀ cmd, geCommand s.par (word cmd) = (cmd, p) ∧ geOther s.par (word cmd) = none) →
    let target := ((s.gpu.reg[0x10].setWidth 32 <<< 8) &&& 0x0F000000#32 ||| (p &&& 0xFFFFFC#24).setWidth 32) + s.gpu.offsetAddr
    let after := fun cmd : BitVec 8 => (s.executeCommand id l (word cmd)).gpu
    (after 0x08#8).list? id = some { l with current := target } ∧
    (l.callStack.length < s.par.geStackDepth →
      (after 0x0A#8).list? id =
        some { l with callStack := (l.current, s.gpu.offsetAddr) :: l.callStack, current := target }) ∧
    (s.par.geStackDepth ≤ l.callStack.length → (after 0x0A#8).list? id = some l) ∧
    (∀ c o rest, l.callStack = (c, o) :: rest →
      (after 0x0B#8).list? id = some { l with current := c, callStack := rest } ∧ (after 0x0B#8).offsetAddr = o) ∧
    (l.callStack = [] → (after 0x0B#8).list? id = some l ∧ (after 0x0B#8).offsetAddr = s.gpu.offsetAddr) ∧
    (after 0x0C#8).list? id = some { l with status := .completed } ∧
    (after 0x0F#8).list? id = some { l with finished := true } ∧
    (after 0x14#8).offsetAddr = l.current - 4#32 ∧ (after 0x13#8).offsetAddr = p.setWidth 32 <<< 8

/-- The top-left rule. The triangle (0,0), (4,0), (0,4) in through mode covers exactly the ten pixels with `px + py < 4`, the set
that R381 derives from R378 and R379; and, as R379 derives, of two triangles that share an edge and walk it in opposite
directions exactly one admits each point, on the edge or off it. -/
def Obligations.TopLeftRule : Prop :=
  (∀ (g : Gpu) (sense : CullSense) (a b c : GeVertex), g.flag 0x1D 0 = false →
    a.X = 0 → a.Y = 0 → b.X = 64 → b.Y = 0 → c.X = 0 → c.Y = 64 →
    ∃ t, setupTriangle g sense a b c = some t ∧ ∀ px py : Nat, t.covers px py = true ↔ px + py < 4) ∧
  (∀ (a b : GeVertex) (x y : ℤ), ¬ (a.X = b.X ∧ a.Y = b.Y) →
    (edgeAdmits a b (edge a b x y) = true ↔ edgeAdmits b a (edge b a x y) = false))

/-- A fragment that a stage discards writes nothing at all (R382): outside the scissor rectangle (R384); and, outside clear mode,
out of the depth range when not in through mode (R384), failing the depth test under any of its functions (R385), or failing the
alpha test under any of its functions (R394). -/
def Obligations.DiscardedFragmentWritesNothing : Prop :=
  ∀ (s : State) (d : DrawContext) (f : Fragment),
    (f.px < s.gpu.field 0xD4 0 10 ∨ s.gpu.field 0xD5 0 10 < f.px ∨ f.py < s.gpu.field 0xD4 10 10 ∨
      s.gpu.field 0xD5 10 10 < f.py → s.shade d f = s) ∧
    (s.gpu.flag 0xD3 0 = false → d.through = false →
      f.z < (s.gpu.field 0xD6 0 16 : ℤ) ∨ (s.gpu.field 0xD7 0 16 : ℤ) < f.z → s.shade d f = s) ∧
    (∀ z, s.gpu.flag 0xD3 0 = false → s.gpu.flag 0x23 0 = true → s.gpu.depthRange d.through f.z = some z →
      ¬ comparePasses (s.gpu.field 0xDE 0 3) z (geHalf s.par s.mem (s.gpu.depthAddr f.px f.py)).toNat →
      s.shade d f = s) ∧
    (s.gpu.flag 0xD3 0 = false → s.gpu.flag 0x22 0 = true →
      ¬ comparePasses (s.gpu.field 0xDB 0 3) ((s.gpu.textured s.par d.snapshot f).a &&& s.gpu.field 0xDB 16 8 : ℕ)
        (s.gpu.field 0xDB 8 8 &&& s.gpu.field 0xDB 16 8 : ℕ) → s.shade d f = s)

/-- What a fragment writes. One that passes every stage (R396): R, G and B of its colour after blending, by truncation, the
destination's alpha bits unchanged, and its depth where the depth test is enabled and depth writes are not disabled. In clear
mode (R397), after the scissor alone: R, G and B, alpha and depth each where its flag says so, of the vertex colour. No byte but
the pixel's and, where it is written, the depth's changes. `pa` and `pz` are where they lie in physical memory; a depth that is
written over its own pixel (not `apart`) is written last. The alpha bit of
5551 that clear mode writes is the model's (notes/assumptions/28), as is a cleared depth that 16 bits do not hold, which is not
stated except in through mode, where it is clamped (R384; notes/assumptions/27). -/
def Obligations.FragmentWrites : Prop :=
  ∀ (s : State) (d : DrawContext) (f : Fragment) (pa pz : Nat), s.memWf = true → s.gpu.inScissor f.px f.py = true →
    f.c.inRange →
    let fmt := s.gpu.fbFmt
    let size := if fmt = 3 then 4 else 2
    let t := s.shade d f
    let old := s.gpu.readPixel s.par s.mem f.px f.py
    let v := t.gpu.readPixel t.par t.mem f.px f.py
    (∀ k, k < size → translate s.par (s.gpu.pixelAddr f.px f.py + BitVec.ofNat 32 k) = some (pa + k)) →
    (∀ k, k < 2 → translate s.par (s.gpu.depthAddr f.px f.py + BitVec.ofNat 32 k) = some (pz + k)) →
    let sameButPixel := ∀ a, a < pa ∨ pa + size ≤ a → Memory.read t.mem a = Memory.read s.mem a
    let sameButBoth := ∀ a, a < pa ∨ pa + size ≤ a → a < pz ∨ pz + 2 ≤ a → Memory.read t.mem a = Memory.read s.mem a
    let apart := pa + size ≤ pz ∨ pz + 2 ≤ pa
    let depth := (geHalf t.par t.mem (s.gpu.depthAddr f.px f.py)).toNat
    let c := s.gpu.blended (s.gpu.textured s.par d.snapshot f) (s.gpu.destColour old)
    (∀ z, s.gpu.flag 0xD3 0 = false → s.gpu.depthRange d.through f.z = some z →
      s.gpu.depthTest s.par s.mem f.px f.py z = true → s.gpu.alphaTest (s.gpu.textured s.par d.snapshot f).a = true →
      let noDepth := s.gpu.flag 0x23 0 = false ∨ s.gpu.flag 0xE7 0 = true
      (noDepth ∨ apart → (∀ ch, ch < 3 → pixelHolds fmt ch v (c.channel ch)) ∧ pixelAgrees fmt 3 v old) ∧
      (noDepth → sameButPixel) ∧ (¬ noDepth → (depth : ℤ) = z ∧ sameButBoth)) ∧
    (s.gpu.flag 0xD3 0 = true →
      (s.gpu.flag 0xD3 10 = false ∨ apart →
        ∀ ch, ch < 4 → if s.gpu.flag 0xD3 (if ch < 3 then 8 else 9) then pixelHolds fmt ch v (f.c.channel ch)
          else pixelAgrees fmt ch v old) ∧
      (s.gpu.flag 0xD3 10 = false → sameButPixel) ∧
      (s.gpu.flag 0xD3 10 = true → sameButBoth ∧ (0 ≤ f.z → f.z ≤ 65535 → (depth : ℤ) = f.z) ∧
        (d.through = true → (depth : ℤ) = max 0 (min f.z 65535))))

/-- The texture function (R393), channel by channel for every function code, with the fragment's alpha rule and doubling; and the
blend equations (R395) for every pair of factor codes, clamped to 0 to 255, alpha not blended. -/
def Obligations.TextureFunctionAndBlend : Prop :=
  ∀ (g : Gpu) (p : Params) (m : List Host.Cell) (f : Fragment) (c d : Rgba),
    (g.flag 0x1E 0 = false → g.textured p m f = f.c) ∧
    (g.flag 0x1E 0 = true →
      let t := g.sample p m f.S f.T
      let v := g.textured p m f
      let func := g.field 0xC9 0 3
      let rgba := g.flag 0xC9 8
      let modulated := if rgba then t.a * f.c.a / 255 else f.c.a
      (∀ h ∈ [(v.r, t.r, f.c.r, g.field 0xCA 0 8), (v.g, t.g, f.c.g, g.field 0xCA 8 8), (v.b, t.b, f.c.b, g.field 0xCA 16 8)],
        let twice := fun n => if g.flag 0xC9 16 then min 255 (2 * n) else n
        (func = 0 ∨ 5 ≤ func → h.1 = twice (h.2.1 * h.2.2.1 / 255)) ∧
        (func = 1 → h.1 = twice (if rgba then (h.2.1 * t.a + h.2.2.1 * (255 - t.a)) / 255 else h.2.1)) ∧
        (func = 2 → h.1 = twice ((h.2.2.1 * (255 - h.2.1) + h.2.2.2 * h.2.1) / 255)) ∧
        (func = 3 → h.1 = twice h.2.1) ∧ (func = 4 → h.1 = twice (min 255 (h.2.1 + h.2.2.1)))) ∧
      (func = 1 → v.a = f.c.a) ∧ (func = 3 → v.a = if rgba then t.a else f.c.a) ∧
      (func ≠ 1 → func ≠ 3 → v.a = modulated)) ∧
    (g.flag 0x21 0 = false → g.blended c d = c) ∧
    (g.flag 0x21 0 = true →
      let v := g.blended c d
      let eq := g.field 0xDF 8 3
      let alphas := [(2, c.a), (3, 255 - c.a), (4, d.a), (5, 255 - d.a), (6, 2 * c.a), (7, 2 * (255 - c.a)), (8, 2 * d.a),
        (9, 2 * (255 - d.a))]
      let fixed := fun n => (List.range 6).map fun i => (10 + i, n)
      v.a = c.a ∧
      ∀ h ∈ [(v.r, c.r, d.r, g.field 0xE0 0 8, g.field 0xE1 0 8), (v.g, c.g, d.g, g.field 0xE0 8 8, g.field 0xE1 8 8),
             (v.b, c.b, d.b, g.field 0xE0 16 8, g.field 0xE1 16 8)],
        (eq = 3 → h.1 = min h.2.1 h.2.2.1) ∧ (eq = 4 → h.1 = max h.2.1 h.2.2.1) ∧
        (eq = 5 → (h.1 : ℤ) = |(h.2.1 : ℤ) - h.2.2.1|) ∧
        ∀ fs ∈ [(0, h.2.2.1), (1, 255 - h.2.2.1)] ++ alphas ++ fixed h.2.2.2.1,
          ∀ fd ∈ [(0, h.2.1), (1, 255 - h.2.1)] ++ alphas ++ fixed h.2.2.2.2,
            g.field 0xDF 0 4 = fs.1 → g.field 0xDF 4 4 = fd.1 →
              (eq = 0 ∨ eq = 6 ∨ eq = 7 → h.1 = min 255 ((h.2.1 * fs.2 + h.2.2.1 * fd.2) / 255)) ∧
              (eq = 1 → (h.1 : ℤ) = max 0 (min 255 ⌊((h.2.1 * fs.2 : ℚ) - h.2.2.1 * fd.2) / 255⌋)) ∧
              (eq = 2 → (h.1 : ℤ) = max 0 (min 255 ⌊((h.2.2.1 * fd.2 : ℚ) - h.2.1 * fs.2) / 255⌋)))

/-- Every texel format (R387, R388, R390 to R392), sampled nearest or bilinear (R386), and every texture function (R393) and blend
(R395) give channels of 0 to 255, from a fragment and a destination whose channels are; and the palette of a DXT block has the
rounded third of R390 where `color1 > color2` and transparent black where not. -/
def Obligations.ChannelsStayInRange : Prop :=
  (∀ (g : Gpu) (p : Params) (m : List Host.Cell) (S T : ℤ), (g.sample p m S T).inRange) ∧
  (∀ (g : Gpu) (p : Params) (m : List Host.Cell) (f : Fragment), f.c.inRange → (g.textured p m f).inRange) ∧
  (∀ (g : Gpu) (c d : Rgba), c.inRange → d.inRange → (g.blended c d).inRange) ∧
  ∀ (c1 c2 : BitVec 16),
    (c2.toNat < c1.toNat → ∀ ch, ch < 3 →
      let p0 := (dxtPalette c1 c2 0).channel ch
      let p1 := (dxtPalette c1 c2 1).channel ch
      |(3 * (dxtPalette c1 c2 2).channel ch : ℤ) - (2 * p0 + p1)| ≤ 1 ∧
        |(3 * (dxtPalette c1 c2 3).channel ch : ℤ) - (p0 + 2 * p1)| ≤ 1) ∧
    (c1.toNat ≤ c2.toNat → ∀ ch, ch < 4 → (dxtPalette c1 c2 3).channel ch = 0)
end

