-- ==== Sys2Proof/Laws/Encoding.lean ====
section
/-! SUPPORT. The fields of an encoded word: what each field reads from each encoding format. -/

namespace Sys2Proof

section R
variable (op : BitVec 6) (rs rt rd sa : BitVec 5) (funct : BitVec 6)

@[simp] theorem fieldOp_encodeR : fieldOp (encodeR op rs rt rd sa funct) = op := by
  unfold fieldOp encodeR; ext i hi; simp; grind
@[simp] theorem fieldRs_encodeR : fieldRs (encodeR op rs rt rd sa funct) = rs := by
  unfold fieldRs encodeR; ext i hi; simp; grind
@[simp] theorem fieldRt_encodeR : fieldRt (encodeR op rs rt rd sa funct) = rt := by
  unfold fieldRt encodeR; ext i hi; simp; grind
@[simp] theorem fieldRd_encodeR : fieldRd (encodeR op rs rt rd sa funct) = rd := by
  unfold fieldRd encodeR; ext i hi; simp; grind
@[simp] theorem fieldSa_encodeR : fieldSa (encodeR op rs rt rd sa funct) = sa := by
  unfold fieldSa encodeR; ext i hi; simp; grind
@[simp] theorem fieldFunct_encodeR : fieldFunct (encodeR op rs rt rd sa funct) = funct := by
  unfold fieldFunct encodeR; ext i hi; simp; grind
end R

section I
variable (op : BitVec 6) (rs rt : BitVec 5) (imm : BitVec 16)

@[simp] theorem fieldOp_encodeI : fieldOp (encodeI op rs rt imm) = op := by
  unfold fieldOp encodeI; ext i hi; simp; grind
@[simp] theorem fieldRs_encodeI : fieldRs (encodeI op rs rt imm) = rs := by
  unfold fieldRs encodeI; ext i hi; simp; grind
@[simp] theorem fieldRt_encodeI : fieldRt (encodeI op rs rt imm) = rt := by
  unfold fieldRt encodeI; ext i hi; simp; grind
@[simp] theorem fieldImm_encodeI : fieldImm (encodeI op rs rt imm) = imm := by
  unfold fieldImm encodeI; ext i hi; simp; grind
end I

@[simp] theorem fieldOp_encodeJ (op : BitVec 6) (t : BitVec 26) : fieldOp (encodeJ op t) = op := by
  unfold fieldOp encodeJ; ext i hi
  have h := BitVec.getLsbD_append (x := op) (y := t) (i := 26 + i)
  simp only [BitVec.getElem_extractLsb']
  rw [h, if_neg (by omega), ← BitVec.getLsbD_eq_getElem]; congr 1; omega
@[simp] theorem fieldTarget_encodeJ (op : BitVec 6) (t : BitVec 26) : fieldTarget (encodeJ op t) = t := by
  unfold fieldTarget encodeJ; ext i hi; simp; grind
@[simp] theorem fieldOp_encodeCode (c : BitVec 20) (f : BitVec 6) : fieldOp (encodeCode c f) = 0#6 := by
  unfold fieldOp encodeCode; ext i hi; simp; grind
@[simp] theorem fieldCode_encodeCode (c : BitVec 20) (f : BitVec 6) : fieldCode (encodeCode c f) = c := by
  unfold fieldCode encodeCode; ext i hi; simp; grind
@[simp] theorem fieldFunct_encodeCode (c : BitVec 20) (f : BitVec 6) : fieldFunct (encodeCode c f) = f := by
  unfold fieldFunct encodeCode; ext i hi; simp; grind

end Sys2Proof
end

