-- ==== Sys2Proof/Laws/State.lean ====
section
/-! SUPPORT. One lemma per field of the state per update (true by unfolding the update once), so that no later proof unfolds a
record update. -/

namespace Sys2Proof.Machine

variable (s : State) (c : Context)

/-! ## Context updates -/

@[simp] theorem Context.advance_gpr : c.advance.gpr = c.gpr := rfl
@[simp] theorem Context.advance_hi : c.advance.hi = c.hi := rfl
@[simp] theorem Context.advance_lo : c.advance.lo = c.lo := rfl
@[simp] theorem Context.advance_pc : c.advance.pc = c.nextPc := rfl
@[simp] theorem Context.advance_nextPc : c.advance.nextPc = c.nextPc + 4#32 := rfl
@[simp] theorem Context.advance_ds : c.advance.ds = false := rfl
@[simp] theorem Context.advance_fpr : c.advance.fpr = c.fpr := rfl
@[simp] theorem Context.advance_fcr31 : c.advance.fcr31 = c.fcr31 := rfl
@[simp] theorem Context.advance_vpr : c.advance.vpr = c.vpr := rfl
@[simp] theorem Context.advance_vpfx : c.advance.vpfx = c.vpfx := rfl

@[simp] theorem Context.jumpTo_gpr (a : Word) : (c.jumpTo a).gpr = c.gpr := rfl
@[simp] theorem Context.jumpTo_hi (a : Word) : (c.jumpTo a).hi = c.hi := rfl
@[simp] theorem Context.jumpTo_lo (a : Word) : (c.jumpTo a).lo = c.lo := rfl
@[simp] theorem Context.jumpTo_pc (a : Word) : (c.jumpTo a).pc = a := rfl
@[simp] theorem Context.jumpTo_nextPc (a : Word) : (c.jumpTo a).nextPc = a + 4#32 := rfl
@[simp] theorem Context.jumpTo_ds (a : Word) : (c.jumpTo a).ds = false := rfl
@[simp] theorem Context.jumpTo_fpr (a : Word) : (c.jumpTo a).fpr = c.fpr := rfl
@[simp] theorem Context.jumpTo_fcr31 (a : Word) : (c.jumpTo a).fcr31 = c.fcr31 := rfl
@[simp] theorem Context.jumpTo_vpr (a : Word) : (c.jumpTo a).vpr = c.vpr := rfl
@[simp] theorem Context.jumpTo_vpfx (a : Word) : (c.jumpTo a).vpfx = c.vpfx := rfl

@[simp] theorem Context.setF_gpr (r : FReg) (v : Word) : (c.setF r v).gpr = c.gpr := rfl
@[simp] theorem Context.setF_hi (r : FReg) (v : Word) : (c.setF r v).hi = c.hi := rfl
@[simp] theorem Context.setF_lo (r : FReg) (v : Word) : (c.setF r v).lo = c.lo := rfl
@[simp] theorem Context.setF_pc (r : FReg) (v : Word) : (c.setF r v).pc = c.pc := rfl
@[simp] theorem Context.setF_nextPc (r : FReg) (v : Word) : (c.setF r v).nextPc = c.nextPc := rfl
@[simp] theorem Context.setF_ds (r : FReg) (v : Word) : (c.setF r v).ds = c.ds := rfl
@[simp] theorem Context.setF_fcr31 (r : FReg) (v : Word) : (c.setF r v).fcr31 = c.fcr31 := rfl
@[simp] theorem Context.setF_vpr (r : FReg) (v : Word) : (c.setF r v).vpr = c.vpr := rfl
@[simp] theorem Context.setF_vpfx (r : FReg) (v : Word) : (c.setF r v).vpfx = c.vpfx := rfl

@[simp] theorem Context.setX_hi (r : Reg) (v : Word) : (c.setX r v).hi = c.hi := by
  unfold Context.setX; split <;> rfl
@[simp] theorem Context.setX_lo (r : Reg) (v : Word) : (c.setX r v).lo = c.lo := by
  unfold Context.setX; split <;> rfl
@[simp] theorem Context.setX_pc (r : Reg) (v : Word) : (c.setX r v).pc = c.pc := by
  unfold Context.setX; split <;> rfl
@[simp] theorem Context.setX_nextPc (r : Reg) (v : Word) : (c.setX r v).nextPc = c.nextPc := by
  unfold Context.setX; split <;> rfl
@[simp] theorem Context.setX_ds (r : Reg) (v : Word) : (c.setX r v).ds = c.ds := by
  unfold Context.setX; split <;> rfl
@[simp] theorem Context.setX_fpr (r : Reg) (v : Word) : (c.setX r v).fpr = c.fpr := by
  unfold Context.setX; split <;> rfl
@[simp] theorem Context.setX_fcr31 (r : Reg) (v : Word) : (c.setX r v).fcr31 = c.fcr31 := by
  unfold Context.setX; split <;> rfl
@[simp] theorem Context.setX_vpr (r : Reg) (v : Word) : (c.setX r v).vpr = c.vpr := by
  unfold Context.setX; split <;> rfl
@[simp] theorem Context.setX_vpfx (r : Reg) (v : Word) : (c.setX r v).vpfx = c.vpfx := by
  unfold Context.setX; split <;> rfl

/-! ## State updates -/

@[simp] theorem State.setX_par (r : Reg) (v : Word) : (s.setX r v).par = s.par := rfl
@[simp] theorem State.setX_cpu (r : Reg) (v : Word) : (s.setX r v).cpu = s.cpu.setX r v := rfl
@[simp] theorem State.setX_run (r : Reg) (v : Word) : (s.setX r v).run = s.run := rfl
@[simp] theorem State.setX_cycles (r : Reg) (v : Word) : (s.setX r v).cycles = s.cycles := rfl
@[simp] theorem State.setX_mem (r : Reg) (v : Word) : (s.setX r v).mem = s.mem := rfl
@[simp] theorem State.setX_kernel (r : Reg) (v : Word) : (s.setX r v).kernel = s.kernel := rfl
@[simp] theorem State.setX_gpu (r : Reg) (v : Word) : (s.setX r v).gpu = s.gpu := rfl
@[simp] theorem State.setX_loader (r : Reg) (v : Word) : (s.setX r v).loader = s.loader := rfl
@[simp] theorem State.setX_draws (r : Reg) (v : Word) : (s.setX r v).draws = s.draws := rfl

@[simp] theorem State.setF_par (r : FReg) (v : Word) : (s.setF r v).par = s.par := rfl
@[simp] theorem State.setF_cpu (r : FReg) (v : Word) : (s.setF r v).cpu = s.cpu.setF r v := rfl
@[simp] theorem State.setF_run (r : FReg) (v : Word) : (s.setF r v).run = s.run := rfl
@[simp] theorem State.setF_cycles (r : FReg) (v : Word) : (s.setF r v).cycles = s.cycles := rfl
@[simp] theorem State.setF_mem (r : FReg) (v : Word) : (s.setF r v).mem = s.mem := rfl
@[simp] theorem State.setF_kernel (r : FReg) (v : Word) : (s.setF r v).kernel = s.kernel := rfl
@[simp] theorem State.setF_gpu (r : FReg) (v : Word) : (s.setF r v).gpu = s.gpu := rfl
@[simp] theorem State.setF_loader (r : FReg) (v : Word) : (s.setF r v).loader = s.loader := rfl
@[simp] theorem State.setF_draws (r : FReg) (v : Word) : (s.setF r v).draws = s.draws := rfl

@[simp] theorem State.advance_par : s.advance.par = s.par := rfl
@[simp] theorem State.advance_cpu : s.advance.cpu = s.cpu.advance := rfl
@[simp] theorem State.advance_run : s.advance.run = s.run := rfl
@[simp] theorem State.advance_cycles : s.advance.cycles = s.cycles := rfl
@[simp] theorem State.advance_mem : s.advance.mem = s.mem := rfl
@[simp] theorem State.advance_kernel : s.advance.kernel = s.kernel := rfl
@[simp] theorem State.advance_gpu : s.advance.gpu = s.gpu := rfl
@[simp] theorem State.advance_loader : s.advance.loader = s.loader := rfl
@[simp] theorem State.advance_draws : s.advance.draws = s.draws := rfl

@[simp] theorem State.drew_par (n : Nat) : (s.drew n).par = s.par := rfl
@[simp] theorem State.drew_cpu (n : Nat) : (s.drew n).cpu = s.cpu := rfl
@[simp] theorem State.drew_run (n : Nat) : (s.drew n).run = s.run := rfl
@[simp] theorem State.drew_cycles (n : Nat) : (s.drew n).cycles = s.cycles := rfl
@[simp] theorem State.drew_mem (n : Nat) : (s.drew n).mem = s.mem := rfl
@[simp] theorem State.drew_kernel (n : Nat) : (s.drew n).kernel = s.kernel := rfl
@[simp] theorem State.drew_gpu (n : Nat) : (s.drew n).gpu = s.gpu := rfl
@[simp] theorem State.drew_loader (n : Nat) : (s.drew n).loader = s.loader := rfl
@[simp] theorem State.drew_draws (n : Nat) : (s.drew n).draws = s.draws + n := rfl

@[simp] theorem State.halted_par (r : HaltReason) : (s.halted r).par = s.par := rfl
@[simp] theorem State.halted_cpu (r : HaltReason) : (s.halted r).cpu = s.cpu.advance := rfl
@[simp] theorem State.halted_run (r : HaltReason) : (s.halted r).run = .halted r := rfl
@[simp] theorem State.halted_cycles (r : HaltReason) : (s.halted r).cycles = s.cycles := rfl
@[simp] theorem State.halted_mem (r : HaltReason) : (s.halted r).mem = s.mem := rfl
@[simp] theorem State.halted_kernel (r : HaltReason) : (s.halted r).kernel = s.kernel := rfl
@[simp] theorem State.halted_gpu (r : HaltReason) : (s.halted r).gpu = s.gpu := rfl
@[simp] theorem State.halted_loader (r : HaltReason) : (s.halted r).loader = s.loader := rfl
@[simp] theorem State.halted_draws (r : HaltReason) : (s.halted r).draws = s.draws := rfl

@[simp] theorem State.haltHere_par (r : HaltReason) : (s.haltHere r).par = s.par := rfl
@[simp] theorem State.haltHere_cpu (r : HaltReason) : (s.haltHere r).cpu = s.cpu := rfl
@[simp] theorem State.haltHere_run (r : HaltReason) : (s.haltHere r).run = .halted r := rfl
@[simp] theorem State.haltHere_cycles (r : HaltReason) : (s.haltHere r).cycles = s.cycles := rfl
@[simp] theorem State.haltHere_mem (r : HaltReason) : (s.haltHere r).mem = s.mem := rfl
@[simp] theorem State.haltHere_kernel (r : HaltReason) : (s.haltHere r).kernel = s.kernel := rfl
@[simp] theorem State.haltHere_gpu (r : HaltReason) : (s.haltHere r).gpu = s.gpu := rfl
@[simp] theorem State.haltHere_loader (r : HaltReason) : (s.haltHere r).loader = s.loader := rfl
@[simp] theorem State.haltHere_draws (r : HaltReason) : (s.haltHere r).draws = s.draws := rfl

@[simp] theorem State.enterHost_par (e : HostEvent) : (s.enterHost e).par = s.par := rfl
@[simp] theorem State.enterHost_cpu (e : HostEvent) : (s.enterHost e).cpu = s.cpu := rfl
@[simp] theorem State.enterHost_run (e : HostEvent) : (s.enterHost e).run = .inHost e := rfl
@[simp] theorem State.enterHost_cycles (e : HostEvent) : (s.enterHost e).cycles = s.cycles := rfl
@[simp] theorem State.enterHost_mem (e : HostEvent) : (s.enterHost e).mem = s.mem := rfl
@[simp] theorem State.enterHost_kernel (e : HostEvent) : (s.enterHost e).kernel = s.kernel := rfl
@[simp] theorem State.enterHost_gpu (e : HostEvent) : (s.enterHost e).gpu = s.gpu := rfl
@[simp] theorem State.enterHost_loader (e : HostEvent) : (s.enterHost e).loader = s.loader := rfl
@[simp] theorem State.enterHost_draws (e : HostEvent) : (s.enterHost e).draws = s.draws := rfl

@[simp] theorem State.resume_par : s.resume.par = s.par := rfl
@[simp] theorem State.resume_cpu : s.resume.cpu = s.cpu := rfl
@[simp] theorem State.resume_run : s.resume.run = .running := rfl
@[simp] theorem State.resume_cycles : s.resume.cycles = s.cycles := rfl
@[simp] theorem State.resume_mem : s.resume.mem = s.mem := rfl
@[simp] theorem State.resume_kernel : s.resume.kernel = s.kernel := rfl
@[simp] theorem State.resume_gpu : s.resume.gpu = s.gpu := rfl
@[simp] theorem State.resume_loader : s.resume.loader = s.loader := rfl
@[simp] theorem State.resume_draws : s.resume.draws = s.draws := rfl

@[simp] theorem State.storeBytes_par (pa : Nat) (bs : List Byte) : (s.storeBytes pa bs).par = s.par := rfl
@[simp] theorem State.storeBytes_cpu (pa : Nat) (bs : List Byte) : (s.storeBytes pa bs).cpu = s.cpu := rfl
@[simp] theorem State.storeBytes_run (pa : Nat) (bs : List Byte) : (s.storeBytes pa bs).run = s.run := rfl
@[simp] theorem State.storeBytes_cycles (pa : Nat) (bs : List Byte) : (s.storeBytes pa bs).cycles = s.cycles := rfl
@[simp] theorem State.storeBytes_mem (pa : Nat) (bs : List Byte) : (s.storeBytes pa bs).mem = Memory.writeList s.mem pa bs := rfl
@[simp] theorem State.storeBytes_kernel (pa : Nat) (bs : List Byte) : (s.storeBytes pa bs).kernel = s.kernel := rfl
@[simp] theorem State.storeBytes_gpu (pa : Nat) (bs : List Byte) : (s.storeBytes pa bs).gpu = s.gpu.touch pa bs.length := rfl
@[simp] theorem State.storeBytes_loader (pa : Nat) (bs : List Byte) : (s.storeBytes pa bs).loader = s.loader := rfl
@[simp] theorem State.storeBytes_draws (pa : Nat) (bs : List Byte) : (s.storeBytes pa bs).draws = s.draws := rfl

@[simp] theorem State.withKernel_par (f : Kernel → Kernel) : (s.withKernel f).par = s.par := rfl
@[simp] theorem State.withKernel_cpu (f : Kernel → Kernel) : (s.withKernel f).cpu = s.cpu := rfl
@[simp] theorem State.withKernel_run (f : Kernel → Kernel) : (s.withKernel f).run = s.run := rfl
@[simp] theorem State.withKernel_cycles (f : Kernel → Kernel) : (s.withKernel f).cycles = s.cycles := rfl
@[simp] theorem State.withKernel_mem (f : Kernel → Kernel) : (s.withKernel f).mem = s.mem := rfl
@[simp] theorem State.withKernel_kernel (f : Kernel → Kernel) : (s.withKernel f).kernel = f s.kernel := rfl
@[simp] theorem State.withKernel_gpu (f : Kernel → Kernel) : (s.withKernel f).gpu = s.gpu := rfl
@[simp] theorem State.withKernel_loader (f : Kernel → Kernel) : (s.withKernel f).loader = s.loader := rfl
@[simp] theorem State.withKernel_draws (f : Kernel → Kernel) : (s.withKernel f).draws = s.draws := rfl

@[simp] theorem State.withGpu_par (f : Gpu → Gpu) : (s.withGpu f).par = s.par := rfl
@[simp] theorem State.withGpu_cpu (f : Gpu → Gpu) : (s.withGpu f).cpu = s.cpu := rfl
@[simp] theorem State.withGpu_run (f : Gpu → Gpu) : (s.withGpu f).run = s.run := rfl
@[simp] theorem State.withGpu_cycles (f : Gpu → Gpu) : (s.withGpu f).cycles = s.cycles := rfl
@[simp] theorem State.withGpu_mem (f : Gpu → Gpu) : (s.withGpu f).mem = s.mem := rfl
@[simp] theorem State.withGpu_kernel (f : Gpu → Gpu) : (s.withGpu f).kernel = s.kernel := rfl
@[simp] theorem State.withGpu_gpu (f : Gpu → Gpu) : (s.withGpu f).gpu = f s.gpu := rfl
@[simp] theorem State.withGpu_loader (f : Gpu → Gpu) : (s.withGpu f).loader = s.loader := rfl
@[simp] theorem State.withGpu_draws (f : Gpu → Gpu) : (s.withGpu f).draws = s.draws := rfl

@[simp] theorem State.setCurrent_par (u : Option Nat) : (s.setCurrent u).par = s.par := rfl
@[simp] theorem State.setCurrent_cpu (u : Option Nat) : (s.setCurrent u).cpu = s.cpu := rfl
@[simp] theorem State.setCurrent_run (u : Option Nat) : (s.setCurrent u).run = s.run := rfl
@[simp] theorem State.setCurrent_cycles (u : Option Nat) : (s.setCurrent u).cycles = s.cycles := rfl
@[simp] theorem State.setCurrent_mem (u : Option Nat) : (s.setCurrent u).mem = s.mem := rfl
@[simp] theorem State.setCurrent_gpu (u : Option Nat) : (s.setCurrent u).gpu = s.gpu := rfl
@[simp] theorem State.setCurrent_loader (u : Option Nat) : (s.setCurrent u).loader = s.loader := rfl
@[simp] theorem State.setCurrent_draws (u : Option Nat) : (s.setCurrent u).draws = s.draws := rfl

@[simp] theorem State.schedule_par (d : Nat) (a : EventAction) : (s.schedule d a).par = s.par := rfl
@[simp] theorem State.schedule_cpu (d : Nat) (a : EventAction) : (s.schedule d a).cpu = s.cpu := rfl
@[simp] theorem State.schedule_run (d : Nat) (a : EventAction) : (s.schedule d a).run = s.run := rfl
@[simp] theorem State.schedule_cycles (d : Nat) (a : EventAction) : (s.schedule d a).cycles = s.cycles := rfl
@[simp] theorem State.schedule_mem (d : Nat) (a : EventAction) : (s.schedule d a).mem = s.mem := rfl
@[simp] theorem State.schedule_gpu (d : Nat) (a : EventAction) : (s.schedule d a).gpu = s.gpu := rfl
@[simp] theorem State.schedule_loader (d : Nat) (a : EventAction) : (s.schedule d a).loader = s.loader := rfl
@[simp] theorem State.schedule_draws (d : Nat) (a : EventAction) : (s.schedule d a).draws = s.draws := rfl

@[simp] theorem State.unschedule_par (h : Nat) : (s.unschedule h).par = s.par := rfl
@[simp] theorem State.unschedule_cpu (h : Nat) : (s.unschedule h).cpu = s.cpu := rfl
@[simp] theorem State.unschedule_run (h : Nat) : (s.unschedule h).run = s.run := rfl
@[simp] theorem State.unschedule_cycles (h : Nat) : (s.unschedule h).cycles = s.cycles := rfl
@[simp] theorem State.unschedule_mem (h : Nat) : (s.unschedule h).mem = s.mem := rfl
@[simp] theorem State.unschedule_gpu (h : Nat) : (s.unschedule h).gpu = s.gpu := rfl
@[simp] theorem State.unschedule_loader (h : Nat) : (s.unschedule h).loader = s.loader := rfl
@[simp] theorem State.unschedule_draws (h : Nat) : (s.unschedule h).draws = s.draws := rfl

@[simp] theorem State.request_par (b : Bool) : (s.request b).par = s.par := rfl
@[simp] theorem State.request_cpu (b : Bool) : (s.request b).cpu = s.cpu := rfl
@[simp] theorem State.request_run (b : Bool) : (s.request b).run = s.run := rfl
@[simp] theorem State.request_cycles (b : Bool) : (s.request b).cycles = s.cycles := rfl
@[simp] theorem State.request_mem (b : Bool) : (s.request b).mem = s.mem := rfl
@[simp] theorem State.request_gpu (b : Bool) : (s.request b).gpu = s.gpu := rfl
@[simp] theorem State.request_loader (b : Bool) : (s.request b).loader = s.loader := rfl
@[simp] theorem State.request_draws (b : Bool) : (s.request b).draws = s.draws := rfl
@[simp] theorem State.request_current (b : Bool) : (s.request b).kernel.current = s.kernel.current := rfl
@[simp] theorem State.request_objects (b : Bool) : (s.request b).kernel.objects = s.kernel.objects := rfl
@[simp] theorem State.request_ready (b : Bool) : (s.request b).kernel.ready = s.kernel.ready := rfl
@[simp] theorem State.request_reschedRequested (b : Bool) :
    (s.request b).kernel.reschedRequested = (s.kernel.reschedRequested || b) := rfl

@[simp] theorem State.clearRequest_par : s.clearRequest.par = s.par := rfl
@[simp] theorem State.clearRequest_cpu : s.clearRequest.cpu = s.cpu := rfl
@[simp] theorem State.clearRequest_run : s.clearRequest.run = s.run := rfl
@[simp] theorem State.clearRequest_cycles : s.clearRequest.cycles = s.cycles := rfl
@[simp] theorem State.clearRequest_mem : s.clearRequest.mem = s.mem := rfl
@[simp] theorem State.clearRequest_gpu : s.clearRequest.gpu = s.gpu := rfl
@[simp] theorem State.clearRequest_loader : s.clearRequest.loader = s.loader := rfl
@[simp] theorem State.clearRequest_draws : s.clearRequest.draws = s.draws := rfl
@[simp] theorem State.clearRequest_current : s.clearRequest.kernel.current = s.kernel.current := rfl
@[simp] theorem State.clearRequest_objects : s.clearRequest.kernel.objects = s.kernel.objects := rfl
@[simp] theorem State.clearRequest_ready : s.clearRequest.kernel.ready = s.kernel.ready := rfl
@[simp] theorem State.clearRequest_reschedRequested : s.clearRequest.kernel.reschedRequested = false := rfl

@[simp] theorem State.poison_par : s.poison.par = s.par := rfl
@[simp] theorem State.poison_cpu : s.poison.cpu = poisonFrom s.draws 8 s.cpu := rfl
@[simp] theorem State.poison_run : s.poison.run = s.run := rfl
@[simp] theorem State.poison_cycles : s.poison.cycles = s.cycles := rfl
@[simp] theorem State.poison_mem : s.poison.mem = s.mem := rfl
@[simp] theorem State.poison_kernel : s.poison.kernel = s.kernel := rfl
@[simp] theorem State.poison_gpu : s.poison.gpu = s.gpu := rfl
@[simp] theorem State.poison_loader : s.poison.loader = s.loader := rfl
@[simp] theorem State.poison_draws : s.poison.draws = s.draws + 8 := rfl

@[simp] theorem State.setHiLo_par (h l : Word) : (s.setHiLo h l).par = s.par := rfl
@[simp] theorem State.setHiLo_run (h l : Word) : (s.setHiLo h l).run = s.run := rfl
@[simp] theorem State.setHiLo_cycles (h l : Word) : (s.setHiLo h l).cycles = s.cycles := rfl
@[simp] theorem State.setHiLo_mem (h l : Word) : (s.setHiLo h l).mem = s.mem := rfl
@[simp] theorem State.setHiLo_kernel (h l : Word) : (s.setHiLo h l).kernel = s.kernel := rfl
@[simp] theorem State.setHiLo_gpu (h l : Word) : (s.setHiLo h l).gpu = s.gpu := rfl
@[simp] theorem State.setHiLo_loader (h l : Word) : (s.setHiLo h l).loader = s.loader := rfl
@[simp] theorem State.setHiLo_draws (h l : Word) : (s.setHiLo h l).draws = s.draws := rfl
@[simp] theorem State.setHiLo_cpu_gpr (h l : Word) : (s.setHiLo h l).cpu.gpr = s.cpu.gpr := rfl
@[simp] theorem State.setHiLo_cpu_hi (h l : Word) : (s.setHiLo h l).cpu.hi = h := rfl
@[simp] theorem State.setHiLo_cpu_lo (h l : Word) : (s.setHiLo h l).cpu.lo = l := rfl
@[simp] theorem State.setHiLo_cpu_pc (h l : Word) : (s.setHiLo h l).cpu.pc = s.cpu.pc := rfl
@[simp] theorem State.setHiLo_cpu_nextPc (h l : Word) : (s.setHiLo h l).cpu.nextPc = s.cpu.nextPc := rfl
@[simp] theorem State.setHiLo_cpu_ds (h l : Word) : (s.setHiLo h l).cpu.ds = s.cpu.ds := rfl
@[simp] theorem State.setHiLo_cpu_fpr (h l : Word) : (s.setHiLo h l).cpu.fpr = s.cpu.fpr := rfl
@[simp] theorem State.setHiLo_cpu_fcr31 (h l : Word) : (s.setHiLo h l).cpu.fcr31 = s.cpu.fcr31 := rfl
@[simp] theorem State.setHiLo_cpu_vpr (h l : Word) : (s.setHiLo h l).cpu.vpr = s.cpu.vpr := rfl
@[simp] theorem State.setHiLo_cpu_vpfx (h l : Word) : (s.setHiLo h l).cpu.vpfx = s.cpu.vpfx := rfl

@[simp] theorem State.setAcc_par (p : DWord) : (s.setAcc p).par = s.par := rfl
@[simp] theorem State.setAcc_run (p : DWord) : (s.setAcc p).run = s.run := rfl
@[simp] theorem State.setAcc_cycles (p : DWord) : (s.setAcc p).cycles = s.cycles := rfl
@[simp] theorem State.setAcc_mem (p : DWord) : (s.setAcc p).mem = s.mem := rfl
@[simp] theorem State.setAcc_kernel (p : DWord) : (s.setAcc p).kernel = s.kernel := rfl
@[simp] theorem State.setAcc_gpu (p : DWord) : (s.setAcc p).gpu = s.gpu := rfl
@[simp] theorem State.setAcc_loader (p : DWord) : (s.setAcc p).loader = s.loader := rfl
@[simp] theorem State.setAcc_draws (p : DWord) : (s.setAcc p).draws = s.draws := rfl
@[simp] theorem State.setAcc_cpu_gpr (p : DWord) : (s.setAcc p).cpu.gpr = s.cpu.gpr := rfl
@[simp] theorem State.setAcc_cpu_hi (p : DWord) : (s.setAcc p).cpu.hi = p.extractLsb' 32 32 := rfl
@[simp] theorem State.setAcc_cpu_lo (p : DWord) : (s.setAcc p).cpu.lo = p.extractLsb' 0 32 := rfl
@[simp] theorem State.setAcc_cpu_pc (p : DWord) : (s.setAcc p).cpu.pc = s.cpu.pc := rfl
@[simp] theorem State.setAcc_cpu_nextPc (p : DWord) : (s.setAcc p).cpu.nextPc = s.cpu.nextPc := rfl
@[simp] theorem State.setAcc_cpu_ds (p : DWord) : (s.setAcc p).cpu.ds = s.cpu.ds := rfl
@[simp] theorem State.setAcc_cpu_fpr (p : DWord) : (s.setAcc p).cpu.fpr = s.cpu.fpr := rfl
@[simp] theorem State.setAcc_cpu_fcr31 (p : DWord) : (s.setAcc p).cpu.fcr31 = s.cpu.fcr31 := rfl
@[simp] theorem State.setAcc_cpu_vpr (p : DWord) : (s.setAcc p).cpu.vpr = s.cpu.vpr := rfl
@[simp] theorem State.setAcc_cpu_vpfx (p : DWord) : (s.setAcc p).cpu.vpfx = s.cpu.vpfx := rfl

@[simp] theorem State.setFcr31_par (v : Word) : (s.setFcr31 v).par = s.par := rfl
@[simp] theorem State.setFcr31_run (v : Word) : (s.setFcr31 v).run = s.run := rfl
@[simp] theorem State.setFcr31_cycles (v : Word) : (s.setFcr31 v).cycles = s.cycles := rfl
@[simp] theorem State.setFcr31_mem (v : Word) : (s.setFcr31 v).mem = s.mem := rfl
@[simp] theorem State.setFcr31_kernel (v : Word) : (s.setFcr31 v).kernel = s.kernel := rfl
@[simp] theorem State.setFcr31_gpu (v : Word) : (s.setFcr31 v).gpu = s.gpu := rfl
@[simp] theorem State.setFcr31_loader (v : Word) : (s.setFcr31 v).loader = s.loader := rfl
@[simp] theorem State.setFcr31_draws (v : Word) : (s.setFcr31 v).draws = s.draws := rfl
@[simp] theorem State.setFcr31_cpu_gpr (v : Word) : (s.setFcr31 v).cpu.gpr = s.cpu.gpr := rfl
@[simp] theorem State.setFcr31_cpu_hi (v : Word) : (s.setFcr31 v).cpu.hi = s.cpu.hi := rfl
@[simp] theorem State.setFcr31_cpu_lo (v : Word) : (s.setFcr31 v).cpu.lo = s.cpu.lo := rfl
@[simp] theorem State.setFcr31_cpu_pc (v : Word) : (s.setFcr31 v).cpu.pc = s.cpu.pc := rfl
@[simp] theorem State.setFcr31_cpu_nextPc (v : Word) : (s.setFcr31 v).cpu.nextPc = s.cpu.nextPc := rfl
@[simp] theorem State.setFcr31_cpu_ds (v : Word) : (s.setFcr31 v).cpu.ds = s.cpu.ds := rfl
@[simp] theorem State.setFcr31_cpu_fpr (v : Word) : (s.setFcr31 v).cpu.fpr = s.cpu.fpr := rfl
@[simp] theorem State.setFcr31_cpu_fcr31 (v : Word) : (s.setFcr31 v).cpu.fcr31 = v := rfl
@[simp] theorem State.setFcr31_cpu_vpr (v : Word) : (s.setFcr31 v).cpu.vpr = s.cpu.vpr := rfl
@[simp] theorem State.setFcr31_cpu_vpfx (v : Word) : (s.setFcr31 v).cpu.vpfx = s.cpu.vpfx := rfl

@[simp] theorem State.branchTo_par (t : Word) : (s.branchTo t).par = s.par := rfl
@[simp] theorem State.branchTo_run (t : Word) : (s.branchTo t).run = s.run := rfl
@[simp] theorem State.branchTo_cycles (t : Word) : (s.branchTo t).cycles = s.cycles := rfl
@[simp] theorem State.branchTo_mem (t : Word) : (s.branchTo t).mem = s.mem := rfl
@[simp] theorem State.branchTo_kernel (t : Word) : (s.branchTo t).kernel = s.kernel := rfl
@[simp] theorem State.branchTo_gpu (t : Word) : (s.branchTo t).gpu = s.gpu := rfl
@[simp] theorem State.branchTo_loader (t : Word) : (s.branchTo t).loader = s.loader := rfl
@[simp] theorem State.branchTo_draws (t : Word) : (s.branchTo t).draws = s.draws := rfl
@[simp] theorem State.branchTo_cpu_gpr (t : Word) : (s.branchTo t).cpu.gpr = s.cpu.gpr := rfl
@[simp] theorem State.branchTo_cpu_hi (t : Word) : (s.branchTo t).cpu.hi = s.cpu.hi := rfl
@[simp] theorem State.branchTo_cpu_lo (t : Word) : (s.branchTo t).cpu.lo = s.cpu.lo := rfl
@[simp] theorem State.branchTo_cpu_pc (t : Word) : (s.branchTo t).cpu.pc = s.cpu.pc := rfl
@[simp] theorem State.branchTo_cpu_nextPc (t : Word) : (s.branchTo t).cpu.nextPc = t := rfl
@[simp] theorem State.branchTo_cpu_ds (t : Word) : (s.branchTo t).cpu.ds = true := rfl
@[simp] theorem State.branchTo_cpu_fpr (t : Word) : (s.branchTo t).cpu.fpr = s.cpu.fpr := rfl
@[simp] theorem State.branchTo_cpu_fcr31 (t : Word) : (s.branchTo t).cpu.fcr31 = s.cpu.fcr31 := rfl
@[simp] theorem State.branchTo_cpu_vpr (t : Word) : (s.branchTo t).cpu.vpr = s.cpu.vpr := rfl
@[simp] theorem State.branchTo_cpu_vpfx (t : Word) : (s.branchTo t).cpu.vpfx = s.cpu.vpfx := rfl

@[simp] theorem State.enterDelaySlot_par : s.enterDelaySlot.par = s.par := rfl
@[simp] theorem State.enterDelaySlot_run : s.enterDelaySlot.run = s.run := rfl
@[simp] theorem State.enterDelaySlot_cycles : s.enterDelaySlot.cycles = s.cycles := rfl
@[simp] theorem State.enterDelaySlot_mem : s.enterDelaySlot.mem = s.mem := rfl
@[simp] theorem State.enterDelaySlot_kernel : s.enterDelaySlot.kernel = s.kernel := rfl
@[simp] theorem State.enterDelaySlot_gpu : s.enterDelaySlot.gpu = s.gpu := rfl
@[simp] theorem State.enterDelaySlot_loader : s.enterDelaySlot.loader = s.loader := rfl
@[simp] theorem State.enterDelaySlot_draws : s.enterDelaySlot.draws = s.draws := rfl
@[simp] theorem State.enterDelaySlot_cpu_gpr : s.enterDelaySlot.cpu.gpr = s.cpu.gpr := rfl
@[simp] theorem State.enterDelaySlot_cpu_hi : s.enterDelaySlot.cpu.hi = s.cpu.hi := rfl
@[simp] theorem State.enterDelaySlot_cpu_lo : s.enterDelaySlot.cpu.lo = s.cpu.lo := rfl
@[simp] theorem State.enterDelaySlot_cpu_pc : s.enterDelaySlot.cpu.pc = s.cpu.pc := rfl
@[simp] theorem State.enterDelaySlot_cpu_nextPc : s.enterDelaySlot.cpu.nextPc = s.cpu.nextPc := rfl
@[simp] theorem State.enterDelaySlot_cpu_ds : s.enterDelaySlot.cpu.ds = true := rfl
@[simp] theorem State.enterDelaySlot_cpu_fpr : s.enterDelaySlot.cpu.fpr = s.cpu.fpr := rfl
@[simp] theorem State.enterDelaySlot_cpu_fcr31 : s.enterDelaySlot.cpu.fcr31 = s.cpu.fcr31 := rfl
@[simp] theorem State.enterDelaySlot_cpu_vpr : s.enterDelaySlot.cpu.vpr = s.cpu.vpr := rfl
@[simp] theorem State.enterDelaySlot_cpu_vpfx : s.enterDelaySlot.cpu.vpfx = s.cpu.vpfx := rfl

@[simp] theorem State.skipDelaySlot_par : s.skipDelaySlot.par = s.par := rfl
@[simp] theorem State.skipDelaySlot_run : s.skipDelaySlot.run = s.run := rfl
@[simp] theorem State.skipDelaySlot_cycles : s.skipDelaySlot.cycles = s.cycles := rfl
@[simp] theorem State.skipDelaySlot_mem : s.skipDelaySlot.mem = s.mem := rfl
@[simp] theorem State.skipDelaySlot_kernel : s.skipDelaySlot.kernel = s.kernel := rfl
@[simp] theorem State.skipDelaySlot_gpu : s.skipDelaySlot.gpu = s.gpu := rfl
@[simp] theorem State.skipDelaySlot_loader : s.skipDelaySlot.loader = s.loader := rfl
@[simp] theorem State.skipDelaySlot_draws : s.skipDelaySlot.draws = s.draws := rfl
@[simp] theorem State.skipDelaySlot_cpu_gpr : s.skipDelaySlot.cpu.gpr = s.cpu.gpr := rfl
@[simp] theorem State.skipDelaySlot_cpu_hi : s.skipDelaySlot.cpu.hi = s.cpu.hi := rfl
@[simp] theorem State.skipDelaySlot_cpu_lo : s.skipDelaySlot.cpu.lo = s.cpu.lo := rfl
@[simp] theorem State.skipDelaySlot_cpu_pc : s.skipDelaySlot.cpu.pc = s.cpu.nextPc := rfl
@[simp] theorem State.skipDelaySlot_cpu_nextPc : s.skipDelaySlot.cpu.nextPc = s.cpu.nextPc + 4#32 := rfl
@[simp] theorem State.skipDelaySlot_cpu_ds : s.skipDelaySlot.cpu.ds = s.cpu.ds := rfl
@[simp] theorem State.skipDelaySlot_cpu_fpr : s.skipDelaySlot.cpu.fpr = s.cpu.fpr := rfl
@[simp] theorem State.skipDelaySlot_cpu_fcr31 : s.skipDelaySlot.cpu.fcr31 = s.cpu.fcr31 := rfl
@[simp] theorem State.skipDelaySlot_cpu_vpr : s.skipDelaySlot.cpu.vpr = s.cpu.vpr := rfl
@[simp] theorem State.skipDelaySlot_cpu_vpfx : s.skipDelaySlot.cpu.vpfx = s.cpu.vpfx := rfl

end Sys2Proof.Machine
end

