-- ==== Sys2Proof/Laws/Memory.lean ====
section
/-! SUPPORT. The laws of physical memory: read after write, the canonical form kept by every memory operation, and the
canonical form of the memory after reset. -/

namespace Sys2Proof.Machine

/-! ## Read after write -/

theorem Memory.read_of_lt (m : List Host.Cell) (a : Nat) (h : m.all (fun c => decide (a < c.1)) = true) :
    Memory.read m a = Memory.unlisted := by
  induction m with
  | nil => rfl
  | cons c rest ih =>
    obtain ⟨k, b⟩ := c
    simp only [List.all_cons, Bool.and_eq_true, decide_eq_true_eq] at h
    simp only [Memory.read]
    rw [if_neg (by omega), ih h.2]

/-- What a byte reads as after a write, on memory in canonical form. -/
theorem Memory.read_write (m : List Host.Cell) (hm : Memory.wf m = true) (a : Nat) (v : Byte) (i : Nat) :
    Memory.read (Memory.write m a v) i = if i = a then v else Memory.read m i := by
  induction m with
  | nil =>
    simp only [Memory.write]
    split <;> rename_i h
    · split <;> simp_all [Memory.read]
    · simp only [Memory.read]; split <;> split <;> simp_all
  | cons c rest ih =>
    obtain ⟨k, b⟩ := c
    simp only [Memory.wf, Bool.and_eq_true] at hm
    obtain ⟨⟨hb, hlt⟩, hr⟩ := hm
    simp only [Memory.write]
    split <;> rename_i h1
    · have hlt' : rest.all (fun c => decide (a < c.1)) = true := by
        rw [List.all_eq_true] at hlt ⊢
        intro c hc
        have := hlt c hc
        simp only [decide_eq_true_eq] at this ⊢
        omega
      have hun : Memory.read ((k, b) :: rest) a = Memory.unlisted := by
        simp only [Memory.read]; rw [if_neg (by omega)]; exact Memory.read_of_lt rest a hlt'
      split <;> rename_i h2
      · split <;> rename_i h3
        · rw [h3, hun, h2]
        · rfl
      · by_cases hi : i = a
        · rw [if_pos hi, Memory.read, if_pos hi.symm]
        · rw [if_neg hi, Memory.read, if_neg (fun e => hi e.symm)]
    · split <;> rename_i h2
      · subst h2
        split <;> rename_i h3
        · split <;> rename_i h4
          · rw [h4, Memory.read_of_lt rest a hlt, h3]
          · simp only [Memory.read]; rw [if_neg (by omega)]
        · by_cases hi : i = a
          · rw [if_pos hi, Memory.read, if_pos hi.symm]
          · rw [if_neg hi, Memory.read, Memory.read, if_neg (fun e => hi e.symm), if_neg (fun e => hi e.symm)]
      · rw [Memory.read, Memory.read, ih hr]
        by_cases hk : k = i
        · rw [if_pos hk, if_neg (by omega), if_pos hk]
        · rw [if_neg hk, if_neg hk]

/-- A write leaves every other byte alone. -/
theorem Memory.read_write_other (m : List Host.Cell) (hm : Memory.wf m = true) (a : Nat) (v : Byte) (i : Nat) (h : i ≠ a) :
    Memory.read (Memory.write m a v) i = Memory.read m i := by
  rw [Memory.read_write m hm, if_neg h]

/-! ## The canonical form -/

theorem Memory.write_all_lt (m : List Host.Cell) (a : Nat) (v : Byte) (k : Nat) (hk : k < a)
    (h : m.all (fun c => decide (k < c.1)) = true) : (Memory.write m a v).all (fun c => decide (k < c.1)) = true := by
  induction m with
  | nil => simp only [Memory.write]; split <;> simp [hk]
  | cons c rest ih =>
    obtain ⟨k', b⟩ := c
    have h' := h
    simp only [List.all_cons, Bool.and_eq_true, decide_eq_true_eq] at h
    simp only [Memory.write]
    split
    · split
      · exact h'
      · simp only [List.all_cons, Bool.and_eq_true, decide_eq_true_eq]; exact ⟨hk, h.1, h.2⟩
    · split
      · split
        · exact h.2
        · simp only [List.all_cons, Bool.and_eq_true, decide_eq_true_eq]; exact ⟨hk, h.2⟩
      · simp only [List.all_cons, Bool.and_eq_true, decide_eq_true_eq]; exact ⟨h.1, ih h.2⟩

/-- A write keeps the canonical form. -/
theorem Memory.wf_write (m : List Host.Cell) (a : Nat) (v : Byte) (hm : Memory.wf m = true) :
    Memory.wf (Memory.write m a v) = true := by
  induction m with
  | nil => simp only [Memory.write]; split <;> simp_all [Memory.wf]
  | cons c rest ih =>
    obtain ⟨k, b⟩ := c
    have hm' := hm
    simp only [Memory.wf, Bool.and_eq_true] at hm
    obtain ⟨⟨hb, hlt⟩, hr⟩ := hm
    simp only [Memory.write]
    split <;> rename_i h1
    · split <;> rename_i h2
      · exact hm'
      · rw [Memory.wf, Bool.and_eq_true, Bool.and_eq_true]
        refine ⟨⟨by simpa using h2, ?_⟩, hm'⟩
        rw [List.all_eq_true]
        intro c hc
        rcases List.mem_cons.mp hc with rfl | hc
        · simpa using h1
        · have := (List.all_eq_true.mp hlt) c hc
          simp only [decide_eq_true_eq] at this ⊢
          omega
    · split <;> rename_i h2
      · subst h2
        split <;> rename_i h3
        · exact hr
        · rw [Memory.wf, Bool.and_eq_true, Bool.and_eq_true]
          exact ⟨⟨by simpa using h3, hlt⟩, hr⟩
      · rw [Memory.wf, Bool.and_eq_true, Bool.and_eq_true]
        exact ⟨⟨hb, Memory.write_all_lt rest a v k (by omega) hlt⟩, ih hr⟩

/-- Writing a run of bytes keeps the canonical form. -/
theorem Memory.wf_writeList (bs : List Byte) : ∀ (m : List Host.Cell) (a : Nat), Memory.wf m = true →
    Memory.wf (Memory.writeList m a bs) = true := by
  induction bs with
  | nil => intro m a h; exact h
  | cons b bs ih => intro m a h; exact ih _ _ (Memory.wf_write m a b h)

/-- What a byte reads as after a run of bytes is written. -/
theorem Memory.read_writeList (bs : List Byte) : ∀ (m : List Host.Cell) (a i : Nat), Memory.wf m = true →
    Memory.read (Memory.writeList m a bs) i =
      if h : a ≤ i ∧ i < a + bs.length then bs[i - a]'(by omega) else Memory.read m i := by
  induction bs with
  | nil => intro m a i _; rw [dif_neg (by simp only [List.length_nil]; omega)]; rfl
  | cons b bs ih =>
    intro m a i hm
    rw [Memory.writeList, ih _ _ _ (Memory.wf_write m a b hm), Memory.read_write m hm]
    simp only [List.length_cons]
    by_cases h1 : i = a
    · subst h1
      rw [dif_neg (by omega), dif_pos (by omega)]
      simp
    · by_cases h2 : a + 1 ≤ i ∧ i < a + 1 + bs.length
      · rw [dif_pos h2, dif_pos (by omega)]
        have : i - a = (i - (a + 1)) + 1 := by omega
        simp only [this, List.getElem_cons_succ]
      · rw [dif_neg h2, dif_neg (by omega), if_neg h1]

/-- A run of bytes leaves every byte outside it alone. -/
theorem Memory.read_writeList_outside (m : List Host.Cell) (a i : Nat) (bs : List Byte) (hm : Memory.wf m = true)
    (h : i < a ∨ a + bs.length ≤ i) : Memory.read (Memory.writeList m a bs) i = Memory.read m i := by
  rw [Memory.read_writeList bs m a i hm, dif_neg (by omega)]

/-- Canonical memories that read alike are equal. -/
theorem Memory.ext : ∀ (m n : List Host.Cell), Memory.wf m = true → Memory.wf n = true →
    (∀ i, Memory.read m i = Memory.read n i) → m = n
  | [], [], _, _, _ => rfl
  | [], (k, b) :: rest, _, hn, h => by
    have := h k
    simp only [Memory.wf, Bool.and_eq_true] at hn
    simp [Memory.read] at this
    rw [← this] at hn
    simp at hn
  | (k, b) :: rest, [], hm, _, h => by
    have := h k
    simp only [Memory.wf, Bool.and_eq_true] at hm
    simp [Memory.read] at this
    rw [this] at hm
    simp at hm
  | (k, b) :: r, (l, c) :: t, hm, hn, h => by
    have hm' := hm
    have hn' := hn
    simp only [Memory.wf, Bool.and_eq_true, bne_iff_ne, ne_eq] at hm hn
    obtain ⟨⟨hb, hlt⟩, hr⟩ := hm
    obtain ⟨⟨hc, hlt'⟩, ht⟩ := hn
    have hkl : k = l := by
      rcases Nat.lt_trichotomy k l with hlt1 | heq | hgt
      · have h1 := h k
        rw [Memory.read, if_pos rfl] at h1
        rw [Memory.read_of_lt] at h1
        · exact absurd h1 hb
        · simp only [List.all_cons, Bool.and_eq_true, decide_eq_true_eq]
          refine ⟨hlt1, ?_⟩
          rw [List.all_eq_true] at hlt' ⊢
          intro x hx
          have := hlt' x hx
          simp only [decide_eq_true_eq] at this ⊢
          omega
      · exact heq
      · have h1 := (h l).symm
        rw [Memory.read, if_pos rfl] at h1
        rw [Memory.read_of_lt] at h1
        · exact absurd h1 hc
        · simp only [List.all_cons, Bool.and_eq_true, decide_eq_true_eq]
          refine ⟨hgt, ?_⟩
          rw [List.all_eq_true] at hlt ⊢
          intro x hx
          have := hlt x hx
          simp only [decide_eq_true_eq] at this ⊢
          omega
    subst hkl
    have hbc : b = c := by simpa [Memory.read] using h k
    subst hbc
    congr 1
    refine Memory.ext r t hr ht fun i => ?_
    by_cases hi : i = k
    · rw [hi, Memory.read_of_lt r k hlt, Memory.read_of_lt t k hlt']
    · have := h i
      simp only [Memory.read] at this
      rwa [if_neg (fun e => hi e.symm), if_neg (fun e => hi e.symm)] at this

/-- The memory after reset is in canonical form. -/
theorem reset_mem_wf : Memory.wf State.reset.mem = true := rfl

/-- Storing bytes keeps the canonical form. -/
theorem storeBytes_mem_wf (s : State) (pa : Nat) (bs : List Byte) (h : Memory.wf s.mem = true) :
    Memory.wf (s.storeBytes pa bs).mem = true := Memory.wf_writeList bs s.mem pa h

end Sys2Proof.Machine
end

