-- ==== Sys2Proof/Laws/Ops.lean ====
section
/-! SUPPORT. What each shared operation over registers, memory and the run status can do, said once. -/

namespace Sys2Proof.Machine

/-! ## Registers (R21, R28) -/

@[simp] theorem Context.x_zero (c : Context) : c.x 0#5 = 0#32 := rfl

@[simp] theorem Context.setX_zero (c : Context) (v : Word) : c.setX 0#5 v = c := rfl

theorem reg_index_ne (r q : Reg) (hr : r ≠ 0#5) (hq : q ≠ 0#5) (h : q ≠ r) : r.toNat - 1 ≠ q.toNat - 1 := by
  intro e
  apply h
  apply BitVec.eq_of_toNat_eq
  have h1 : r.toNat ≠ 0 := fun e => hr (BitVec.eq_of_toNat_eq (by simpa using e))
  have h2 : q.toNat ≠ 0 := fun e => hq (BitVec.eq_of_toNat_eq (by simpa using e))
  omega

/-- A register after a write. -/
theorem Context.x_setX (c : Context) (r q : Reg) (v : Word) :
    (c.setX r v).x q = if q = 0#5 then 0#32 else if q = r then v else c.x q := by
  unfold Context.setX Context.x
  by_cases hq : q = 0#5
  · simp [hq]
  · by_cases hr : r = 0#5
    · rw [if_pos hr, if_neg hq, if_neg hq, if_neg (fun e => hq (e.trans hr))]
    · rw [if_neg hr, if_neg hq, if_neg hq]
      by_cases h : q = r
      · subst h; rw [if_pos rfl]; simp
      · rw [if_neg h, if_neg hq]
        exact Vector.getElem_set_ne (by have := r.isLt; omega) (by have := q.isLt; omega) (reg_index_ne r q hr hq h)

@[simp] theorem Context.x_setX_same (c : Context) (r : Reg) (v : Word) (h : r ≠ 0#5) : (c.setX r v).x r = v := by
  rw [Context.x_setX, if_neg h, if_pos rfl]

theorem Context.x_setX_other (c : Context) (r q : Reg) (v : Word) (h : q ≠ r) : (c.setX r v).x q = c.x q := by
  rw [Context.x_setX, if_neg h]
  by_cases hq : q = 0#5
  · rw [if_pos hq, hq]; rfl
  · rw [if_neg hq]

/-- A register file is known by its registers. -/
theorem Context.gpr_ext (c d : Context) (h : ∀ r : Reg, c.x r = d.x r) : c.gpr = d.gpr := by
  apply Vector.ext
  intro i hi
  have hne : BitVec.ofNat 5 (i + 1) ≠ 0#5 := by
    intro e
    have h1 := congrArg BitVec.toNat e
    rw [BitVec.toNat_ofNat] at h1
    simp only [BitVec.toNat_ofNat] at h1
    omega
  have := h (BitVec.ofNat 5 (i + 1))
  unfold Context.x at this
  rw [if_neg hne, if_neg hne] at this
  have he : (i + 1) % 32 - 1 = i := by omega
  simpa [he] using this

/-- An FPU register after a write. -/
theorem Context.f_setF (c : Context) (r q : FReg) (v : Word) : (c.setF r v).f q = if q = r then v else c.f q := by
  unfold Context.setF Context.f
  by_cases h : q = r
  · subst h; simp
  · rw [if_neg h]
    exact Vector.getElem_set_ne r.isLt q.isLt fun e => h (BitVec.eq_of_toNat_eq e.symm)

@[simp] theorem State.x_advance (s : State) (r : Reg) : s.advance.x r = s.x r := rfl

@[simp] theorem State.f_advance (s : State) (r : FReg) : s.advance.f r = s.f r := rfl

theorem State.x_setX (s : State) (r q : Reg) (v : Word) :
    (s.setX r v).x q = if q = 0#5 then 0#32 else if q = r then v else s.x q := Context.x_setX s.cpu r q v

theorem State.f_setF (s : State) (r q : FReg) (v : Word) : (s.setF r v).f q = if q = r then v else s.f q :=
  Context.f_setF s.cpu r q v

@[simp] theorem State.f_setX (s : State) (r : Reg) (q : FReg) (v : Word) : (s.setX r v).f q = s.f q := by
  simp [State.f, Context.f]

@[simp] theorem State.x_setF (s : State) (r : FReg) (q : Reg) (v : Word) : (s.setF r v).x q = s.x q := rfl

@[simp] theorem State.x_storeBytes (s : State) (pa : Nat) (bs : List Byte) (r : Reg) : (s.storeBytes pa bs).x r = s.x r := rfl

@[simp] theorem State.f_storeBytes (s : State) (pa : Nat) (bs : List Byte) (r : FReg) : (s.storeBytes pa bs).f r = s.f r := rfl

/-! ## Halts and outcomes (R282) -/

/-- What an instruction that reads or writes memory answers: its continuation, or the halt. -/
theorem State.orHalt_cases {α : Type} (s : State) (r : Except HaltReason α) (k : α → State) :
    (∃ v, r = .ok v ∧ s.orHalt r k = .next (k v)) ∨ (∃ h, r = .error h ∧ s.orHalt r k = .next (s.halted h)) := by
  cases r with
  | ok v => exact .inl ⟨v, rfl, rfl⟩
  | error h => exact .inr ⟨h, rfl, rfl⟩

@[simp] theorem State.orHalt_ok {α : Type} (s : State) (v : α) (k : α → State) : s.orHalt (.ok v) k = .next (k v) := rfl

@[simp] theorem State.orHalt_error {α : Type} (s : State) (h : HaltReason) (k : α → State) :
    s.orHalt (.error h) k = .next (s.halted h) := rfl

/-- What an instruction that checks overflow answers (R110). -/
theorem State.writeChecked_cases (s : State) (ovf : Bool) (r : Reg) (v : Word) :
    (ovf = true ∧ s.par.overflowMode = .halt ∧ s.writeChecked ovf r v = .next (s.halted (.integerOverflow s.cpu.pc))) ∨
    ((ovf = false ∨ s.par.overflowMode = .wrap) ∧ s.writeChecked ovf r v = .next (s.advance.setX r v)) := by
  unfold State.writeChecked State.halt
  cases ovf <;> cases h : s.par.overflowMode <;> simp

/-- What a control transfer answers (R190). -/
theorem State.controlTransfer_cases (s t : State) :
    (s.cpu.ds = true ∧ s.controlTransfer t = .next (s.halted (.branchInDelaySlot s.cpu.pc))) ∨
    (s.cpu.ds = false ∧ s.controlTransfer t = .next t) := by
  unfold State.controlTransfer State.halt
  cases s.cpu.ds <;> simp

/-- What an ordinary branch leaves: only `next_pc` and `ds` change (R190, R193). -/
theorem State.branchIf_cpu (s : State) (c : Bool) (t : Word) :
    s.branchIf c t = { s with cpu := { s.cpu with nextPc := if c then t else s.cpu.nextPc, ds := true } } := by
  unfold State.branchIf State.branchTo State.enterDelaySlot
  cases c <;> rfl

/-- What a likely branch leaves (R190, R194). -/
theorem State.branchLikelyIf_cases (s : State) (c : Bool) (t : Word) :
    (c = true ∧ s.branchLikelyIf c t = s.branchTo t) ∨ (c = false ∧ s.branchLikelyIf c t = s.skipDelaySlot) := by
  cases c
  · exact .inr ⟨rfl, rfl⟩
  · exact .inl ⟨rfl, rfl⟩

/-! ## Translation and the access primitives (R59, R61, R62) -/

/-- A translated address: a segment holds the virtual address, and a region the physical one (R58, R59). -/
theorem translate_some (p : Params) (va : Word) (pa : Nat) (h : translate p va = some pa) :
    (∃ g ∈ p.segments, segmentHolds g va.toNat = true ∧ pa = g.target + (va.toNat - g.first)) ∧ (regionOf p pa).isSome := by
  unfold translate at h
  split at h
  · cases h
  · rename_i g hg
    simp only at h
    split at h
    · rename_i hr
      cases h
      exact ⟨⟨g, List.mem_of_find?_eq_some hg, by simpa using List.find?_some hg, rfl⟩, hr⟩
    · cases h

/-- Under the reference `TRANSLATE` the physical address is the low 29 bits (R59). -/
theorem translate_reference (p : Params) (va : Word) (pa : Nat) (hp : p.segments = Config.referenceSegments)
    (h : translate p va = some pa) : pa = va.toNat % 2 ^ 29 := by
  obtain ⟨⟨g, hg, hh, rfl⟩, _⟩ := translate_some p va pa h
  rw [hp] at hg
  simp only [Config.referenceSegments, List.mem_cons, List.not_mem_nil, or_false] at hg
  simp only [segmentHolds, Bool.and_eq_true, decide_eq_true_eq] at hh
  rcases hg with rfl | rfl | rfl | rfl <;> simp only at hh ⊢ <;> omega

/-- A data access that is answered: aligned, and wholly in one region (R61, R62). -/
theorem dataAddress_ok (p : Params) (a : Word) (n pa : Nat) :
    dataAddress p a n = .ok pa ↔ a.toNat % n = 0 ∧ translateRange p a n = some pa := by
  unfold dataAddress
  by_cases h : a.toNat % n = 0
  · rw [if_neg (by simpa using h)]
    cases translateRange p a n <;> simp [h]
  · rw [if_pos h]; simp [h]

/-- A data access that halts: misaligned before unmapped (R61, R284). -/
theorem dataAddress_error (p : Params) (a : Word) (n : Nat) (r : HaltReason) :
    dataAddress p a n = .error r ↔
      (a.toNat % n ≠ 0 ∧ r = .addressMisaligned a n) ∨
      (a.toNat % n = 0 ∧ translateRange p a n = none ∧ r = .addressUnmapped a n) := by
  unfold dataAddress
  by_cases h : a.toNat % n = 0
  · rw [if_neg (by simpa using h)]
    cases translateRange p a n <;> simp [h, eq_comm]
  · rw [if_pos h]; simp [h, eq_comm]

theorem State.loadByte_ok (s : State) (a : Word) (v : Byte) :
    s.loadByte a = .ok v ↔ ∃ pa, dataAddress s.par a 1 = .ok pa ∧ v = Memory.read s.mem pa := by
  unfold State.loadByte; cases dataAddress s.par a 1 <;> simp [eq_comm]

theorem State.loadHalf_ok (s : State) (a : Word) (v : BitVec 16) :
    s.loadHalf a = .ok v ↔ ∃ pa, dataAddress s.par a 2 = .ok pa ∧ v = Memory.half s.mem pa := by
  unfold State.loadHalf; cases dataAddress s.par a 2 <;> simp [eq_comm]

theorem State.loadWord_ok (s : State) (a : Word) (v : Word) :
    s.loadWord a = .ok v ↔ ∃ pa, dataAddress s.par a 4 = .ok pa ∧ v = Memory.word s.mem pa := by
  unfold State.loadWord; cases dataAddress s.par a 4 <;> simp [eq_comm]

/-- A store that is answered writes all its bytes (R62). -/
theorem State.storeChecked_ok (s t : State) (a : Word) (bs : List Byte) :
    s.storeChecked a bs = .ok t ↔ ∃ pa, dataAddress s.par a bs.length = .ok pa ∧ t = s.storeBytes pa bs := by
  unfold State.storeChecked; cases dataAddress s.par a bs.length <;> simp [eq_comm]

@[simp] theorem wordBytes_length (v : Word) : (wordBytes v).length = 4 := rfl

@[simp] theorem halfBytes_length (v : BitVec 16) : (halfBytes v).length = 2 := rfl

/-! ## The GPU's view of a CPU store (R174) -/

/-- A store changes nothing of the GPU but dirty marks. -/
theorem Gpu.touch_spec (g : Gpu) (pa n : Nat) :
    g.touch pa n = { g with texCache := g.texCache.map (TexEntry.touch pa n) } := rfl

end Sys2Proof.Machine
end

