-- ==== Sys2Proof/Laws/Frames.lean ====
section
/-! SUPPORT. The frame of each shape of state that an instruction answers with, said once (the structures of
Sys2Proof/Safety.lean). -/

namespace Sys2Proof.Machine

theorem State.x_zero_reg (s : State) (q : Reg) (h : q = 0#5) : s.x q = 0#32 := by subst h; rfl

theorem SameFpu.rfl' (s : State) : SameFpu s s := ⟨fun _ => rfl, rfl⟩

/-- The frame of a register write, with `n` draws taken. -/
theorem writesReg_setX (s : State) (r : Reg) (v : Word) (n : Nat) : WritesReg s ((s.advance.setX r v).drew n) r v where
  reg q := State.x_setX s.advance r q v
  hi := by simp
  lo := by simp
  advanced := ⟨by simp, by simp, by simp⟩
  fpu := ⟨fun q => State.f_setX s.advance r q v, by simp⟩
  memory := ⟨fun _ => rfl, rfl⟩
  run := rfl
  agents := ⟨rfl, rfl, rfl, rfl, by simp, by simp⟩

/-- The frame of a register write. -/
theorem writesReg_advance_setX (s : State) (r : Reg) (v : Word) : WritesReg s (s.advance.setX r v) r v :=
  writesReg_setX s r v 0

/-- The frame of an instruction that writes nothing, as a write of what register `r` holds. -/
theorem writesReg_advance (s : State) (r : Reg) : WritesReg s s.advance r (s.x r) where
  reg q := by
    by_cases hq : q = 0#5
    · rw [if_pos hq, State.x_advance, State.x_zero_reg s q hq]
    · rw [if_neg hq, State.x_advance]
      split
      · rename_i h; rw [h]
      · rfl
  hi := rfl
  lo := rfl
  advanced := ⟨rfl, rfl, rfl⟩
  fpu := ⟨fun _ => rfl, rfl⟩
  memory := ⟨fun _ => rfl, rfl⟩
  run := rfl
  agents := ⟨rfl, rfl, rfl, rfl, rfl, rfl⟩

/-- The frame of a write to HI and LO. -/
theorem writesHiLo_setHiLo (s : State) (h l : Word) : WritesHiLo s (s.advance.setHiLo h l) h l where
  reg _ := rfl
  hi := rfl
  lo := rfl
  advanced := ⟨rfl, rfl, rfl⟩
  fpu := ⟨fun _ => rfl, rfl⟩
  memory := ⟨fun _ => rfl, rfl⟩
  run := rfl
  agents := ⟨rfl, rfl, rfl, rfl, rfl, rfl⟩

/-- The frame of an FPU register write, with `n` draws taken. -/
theorem writesFpr_setF (s : State) (r : FReg) (v : Word) (n : Nat) : WritesFpr s ((s.advance.setF r v).drew n) r v where
  fpr q := State.f_setF s.advance r q v
  fcr31 := rfl
  advanced := ⟨rfl, rfl, rfl⟩
  integer := ⟨fun _ => rfl, rfl, rfl⟩
  memory := ⟨fun _ => rfl, rfl⟩
  run := rfl
  agents := ⟨rfl, rfl, rfl, rfl, rfl, rfl⟩

/-- The frame of an FPU register write. -/
theorem writesFpr_advance_setF (s : State) (r : FReg) (v : Word) : WritesFpr s (s.advance.setF r v) r v :=
  writesFpr_setF s r v 0

/-- The frame of a write to FCR31. -/
theorem writesFcr31_setFcr31 (s : State) (v : Word) : WritesFcr31 s (s.advance.setFcr31 v) v where
  fpr _ := rfl
  fcr31 := rfl
  advanced := ⟨rfl, rfl, rfl⟩
  integer := ⟨fun _ => rfl, rfl, rfl⟩
  memory := ⟨fun _ => rfl, rfl⟩
  run := rfl
  agents := ⟨rfl, rfl, rfl, rfl, rfl, rfl⟩

/-- The frame of a step that advances and changes `run`. -/
theorem stopsAs_advance (s : State) (r : RunStatus) : StopsAs s { s.advance with run := r } r where
  run := rfl
  advanced := ⟨rfl, rfl, rfl⟩
  integer := ⟨fun _ => rfl, rfl, rfl⟩
  fpu := ⟨fun _ => rfl, rfl⟩
  memory := ⟨fun _ => rfl, rfl⟩
  agents := ⟨rfl, rfl, rfl, rfl, rfl, rfl⟩

/-- The frame of a halt (R282). -/
theorem halts_halted (s : State) (r : HaltReason) : Halts s (s.halted r) r := stopsAs_advance s (.halted r)

/-- The frame of a store (R62, R174). -/
theorem stores_storeBytes (s : State) (pa : Nat) (bs : List Byte) (hm : Memory.wf s.mem = true) :
    Stores s (s.storeBytes pa bs).advance pa bs where
  stored k h := by
    have := Memory.read_writeList bs s.mem pa (pa + k) hm
    simp only [State.advance_mem, State.storeBytes_mem]
    rw [this, dif_pos (by omega)]
    simp
  outside a h := by
    simp only [State.advance_mem, State.storeBytes_mem]
    exact Memory.read_writeList_outside s.mem pa a bs hm h
  gpu := rfl
  advanced := ⟨rfl, rfl, rfl⟩
  integer := ⟨fun _ => rfl, rfl, rfl⟩
  fpu := ⟨fun _ => rfl, rfl⟩
  run := rfl
  agents := ⟨rfl, rfl, rfl, rfl, rfl, rfl⟩

/-- The frame of a control transfer that leaves `c` as the context, where only the pc pair, `ds` and a link differ. -/
theorem transfers_branchTo (s : State) (t : Word) : Transfers s (s.advance.branchTo t) none s.cpu.nextPc t true where
  pc := rfl
  nextPc := rfl
  ds := rfl
  reg q := by
    by_cases hq : q = 0#5
    · rw [if_pos hq]; exact State.x_zero_reg _ q hq
    · rw [if_neg hq]; rfl
  hi := rfl
  lo := rfl
  fpu := ⟨fun _ => rfl, rfl⟩
  memory := ⟨fun _ => rfl, rfl⟩
  run := rfl
  agents := ⟨rfl, rfl, rfl, rfl, rfl, rfl⟩

/-- The frame of a linking control transfer. -/
theorem transfers_link_branchTo (s : State) (r : Reg) (t : Word) :
    Transfers s ((s.advance.setX r s.link).branchTo t) (some r) s.cpu.nextPc t true where
  pc := by simp [State.branchTo]
  nextPc := rfl
  ds := rfl
  reg q := by
    have h := State.x_setX s.advance r q s.link
    have e : ((s.advance.setX r s.link).branchTo t).x q = (s.advance.setX r s.link).x q := rfl
    rw [e, h]
    by_cases hq : q = 0#5
    · rw [if_pos hq, if_pos hq]
    · rw [if_neg hq, if_neg hq]
      by_cases hr : q = r
      · rw [if_pos hr, if_pos (by rw [hr])]; rfl
      · rw [if_neg hr, if_neg (fun e => hr (Option.some.inj e).symm)]; rfl
  hi := by simp [State.branchTo]
  lo := by simp [State.branchTo]
  fpu := ⟨fun q => State.f_setX s.advance r q _, by simp [State.branchTo]⟩
  memory := ⟨fun _ => rfl, rfl⟩
  run := rfl
  agents := ⟨rfl, rfl, rfl, rfl, by simp [State.branchTo], by simp [State.branchTo]⟩

/-- The frame of an ordinary branch. -/
theorem transfers_branchIf (s : State) (c : Bool) (t : Word) :
    Transfers s (s.advance.branchIf c t) none s.cpu.nextPc (if c then t else s.cpu.nextPc + 4#32) true := by
  have h := transfers_branchTo s (if c then t else s.cpu.nextPc + 4#32)
  cases c <;> exact h

/-- The frame of an ordinary linking branch. -/
theorem transfers_link_branchIf (s : State) (r : Reg) (c : Bool) (t : Word) :
    Transfers s ((s.advance.setX r s.link).branchIf c t) (some r) s.cpu.nextPc (if c then t else s.cpu.nextPc + 4#32)
      true := by
  have h := transfers_link_branchTo s r (if c then t else s.cpu.nextPc + 4#32)
  have e : (s.advance.setX r s.link).branchIf c t =
      (s.advance.setX r s.link).branchTo (if c then t else s.cpu.nextPc + 4#32) := by
    rw [State.branchIf_cpu]
    unfold State.branchTo
    cases c <;> simp
  rw [e]; exact h

/-- The frame of a skipped delay slot. -/
theorem transfers_skipDelaySlot (s : State) :
    Transfers s s.advance.skipDelaySlot none (s.cpu.nextPc + 4#32) (s.cpu.nextPc + 8#32) false where
  pc := rfl
  nextPc := by
    show s.cpu.nextPc + 4#32 + 4#32 = s.cpu.nextPc + 8#32
    rw [BitVec.add_assoc]; rfl
  ds := rfl
  reg q := by
    by_cases hq : q = 0#5
    · rw [if_pos hq]; exact State.x_zero_reg _ q hq
    · rw [if_neg hq]; rfl
  hi := rfl
  lo := rfl
  fpu := ⟨fun _ => rfl, rfl⟩
  memory := ⟨fun _ => rfl, rfl⟩
  run := rfl
  agents := ⟨rfl, rfl, rfl, rfl, rfl, rfl⟩

/-- The frame of a skipped delay slot after a link. -/
theorem transfers_link_skipDelaySlot (s : State) (r : Reg) :
    Transfers s (s.advance.setX r s.link).skipDelaySlot (some r) (s.cpu.nextPc + 4#32) (s.cpu.nextPc + 8#32) false where
  pc := by simp [State.skipDelaySlot]
  nextPc := by
    simp only [State.skipDelaySlot, State.setX_cpu, State.advance_cpu, Context.setX_nextPc, Context.advance_nextPc]
    rw [BitVec.add_assoc]; rfl
  ds := by simp [State.skipDelaySlot]
  reg := (transfers_link_branchTo s r 0#32).reg
  hi := by simp [State.skipDelaySlot]
  lo := by simp [State.skipDelaySlot]
  fpu := ⟨fun q => State.f_setX s.advance r q _, by simp [State.skipDelaySlot]⟩
  memory := ⟨fun _ => rfl, rfl⟩
  run := rfl
  agents := ⟨rfl, rfl, rfl, rfl, by simp [State.skipDelaySlot], by simp [State.skipDelaySlot]⟩

end Sys2Proof.Machine
end

