-- ==== Sys2Proof/Laws/World.lean ====
section
/-! SUPPORT. What the kernel's own operations leave alone: the scheduler, waits, wake-ups, callbacks and context switches change
only kernel objects, the live CPU context and the run status. -/

namespace Sys2Proof.Machine

/-- `t` differs from `s` only in the kernel's state, the live CPU context and the run status. -/
structure SameWorld (s t : State) : Prop where
  par : t.par = s.par
  cycles : t.cycles = s.cycles
  draws : t.draws = s.draws
  mem : t.mem = s.mem
  gpu : t.gpu = s.gpu
  loader : t.loader = s.loader

namespace SameWorld

theorem refl (s : State) : SameWorld s s := ⟨rfl, rfl, rfl, rfl, rfl, rfl⟩

theorem trans {s t u : State} (h : SameWorld s t) (k : SameWorld t u) : SameWorld s u :=
  ⟨k.par.trans h.par, k.cycles.trans h.cycles, k.draws.trans h.draws, k.mem.trans h.mem, k.gpu.trans h.gpu,
    k.loader.trans h.loader⟩

theorem kept {s t : State} (h : SameWorld s t) : Kept s t :=
  ⟨h.par, h.cycles ▸ Nat.le_refl _, h.draws ▸ Nat.le_refl _, fun w => h.mem ▸ w⟩

theorem ite {s t u : State} (c : Prop) [Decidable c] (h : SameWorld s t) (k : SameWorld s u) :
    SameWorld s (if c then t else u) := by split <;> assumption

theorem foldl {α : Type} (f : State → α → State) (hf : ∀ s a, SameWorld s (f s a)) :
    ∀ (l : List α) (s : State), SameWorld s (l.foldl f s)
  | [], s => refl s
  | a :: l, s => (hf s a).trans (foldl f hf l (f s a))

theorem withKernel (s : State) (f : Kernel → Kernel) : SameWorld s (s.withKernel f) := ⟨rfl, rfl, rfl, rfl, rfl, rfl⟩

theorem setKernel (s : State) (k : Kernel) : SameWorld s { s with kernel := k } := ⟨rfl, rfl, rfl, rfl, rfl, rfl⟩

theorem setCpu (s : State) (c : Context) : SameWorld s { s with cpu := c } := ⟨rfl, rfl, rfl, rfl, rfl, rfl⟩

theorem setRun (s : State) (r : RunStatus) : SameWorld s { s with run := r } := ⟨rfl, rfl, rfl, rfl, rfl, rfl⟩

theorem setX (s : State) (r : Reg) (v : Word) : SameWorld s (s.setX r v) := setCpu s _

theorem resume (s : State) : SameWorld s s.resume := setRun s _

theorem schedule (s : State) (d : Nat) (a : EventAction) : SameWorld s (s.schedule d a) := setKernel s _

theorem unschedule (s : State) (h : Nat) : SameWorld s (s.unschedule h) := setKernel s _

theorem unscheduleTimer (s : State) (t : Option Nat) : SameWorld s (s.unscheduleTimer t) := by
  cases t
  · exact refl s
  · exact unschedule s _

theorem setCurrent (s : State) (c : Option Nat) : SameWorld s (s.setCurrent c) := withKernel s _

theorem setPayload (s : State) (uid : Nat) (p : Payload) : SameWorld s (s.setPayload uid p) := by
  unfold State.setPayload
  split
  · exact refl s
  · exact withKernel s _

theorem updThread (s : State) (uid : Nat) (f : Thread → Thread) : SameWorld s (s.updThread uid f) := by
  unfold State.updThread
  split
  · exact refl s
  · exact setPayload s uid _

theorem makeReady (s : State) (uid : Nat) (atHead : Bool) : SameWorld s (s.makeReady uid atHead) := by
  unfold State.makeReady
  split
  · exact refl s
  · exact (updThread s uid _).trans (withKernel _ _)

theorem unready (s : State) (uid : Nat) : SameWorld s (s.unready uid) := by
  unfold State.unready
  split
  · exact refl s
  · exact ite _ (withKernel s _) (refl s)

theorem readyForCallback (s : State) (uid : Nat) : SameWorld s (s.readyForCallback uid) := by
  unfold State.readyForCallback
  split
  · exact refl s
  · exact ite _ (makeReady s uid false) (refl s)

theorem makePending (s : State) (cb : Nat) : SameWorld s (s.makePending cb) := by
  unfold State.makePending
  split
  · exact refl s
  · split
    · exact refl s
    · exact ite _ ((updThread s _ _).trans (readyForCallback _ _)) (refl s)

theorem collectPending (s : State) (uid : Nat) : SameWorld s (s.collectPending uid) :=
  foldl State.makePending makePending _ s

theorem waitCurrent (s : State) (reason : WaitReason) (allow : Bool) : SameWorld s (s.waitCurrent reason allow) := by
  unfold State.waitCurrent
  split
  · exact refl s
  · exact ((((unready s _).trans (withKernel _ _)).trans (updThread _ _ _)).trans (collectPending _ _)).trans
      (readyForCallback _ _)

theorem wakeUp (s t : State) (uid : Nat) (h : s.wakeUp uid = some t) : SameWorld s t := by
  unfold State.wakeUp at h
  split at h
  · cases h
  · split at h
    · cases h
    · split at h <;> cases h
      · exact (updThread s uid _).trans (makeReady _ _ _)
      · exact (updThread s uid _).trans (updThread _ _ _)
      · exact updThread s uid _

theorem wakeUp_getD (s : State) (uid : Nat) : SameWorld s ((s.wakeUp uid).getD s) := by
  cases h : s.wakeUp uid with
  | none => exact refl s
  | some t => exact wakeUp s t uid h

theorem endWait (s : State) (uid w : Nat) (r : Option Word) : SameWorld s (s.endWait uid w r) := by
  unfold State.endWait
  simp only
  split
  · exact withKernel s _
  · split
    · refine SameWorld.trans ?_ (wakeUp_getD _ uid)
      exact SameWorld.trans (withKernel s _) (updThread _ uid _)
    · split
      · exact SameWorld.trans (withKernel s _) (updThread _ uid _)
      · exact withKernel s _

theorem wakeAll (s : State) (reason : WaitReason) (r : Option Word) : SameWorld s (s.wakeAll reason r) :=
  foldl (fun (s : State) (e : Nat × Nat) => s.endWait e.1 e.2 r) (fun s e => endWait s e.1 e.2 r) _ s

theorem switchState (s : State) (uid : Nat) : SameWorld s (s.switchState uid) := by
  unfold State.switchState
  split
  · exact refl s
  · split
    · exact refl s
    · split
      · split
        · exact updThread s uid _
        · exact ((updThread s uid _).trans (setPayload _ _ _)).trans (setCpu _ _)
      · exact refl s

theorem deliver (s : State) (uid : Nat) : SameWorld s (s.deliver uid) := by
  unfold State.deliver
  split
  · exact refl s
  · split
    · exact refl s
    · split
      · exact refl s
      · split
        · split
          · exact (updThread s uid _).trans (withKernel _ _)
          · exact ((updThread s uid _).trans (withKernel _ _)).trans (setX _ _ _)
        · exact refl s

theorem saveCurrent (s : State) (atHead : Bool) : SameWorld s (s.saveCurrent atHead) := by
  unfold State.saveCurrent
  split
  · exact refl s
  · exact ite _ ((updThread s _ _).trans (makeReady _ _ _)) (updThread s _ _)

theorem switchIn (s : State) (n : Nat) (restore : Bool) : SameWorld s (s.switchIn n restore) := by
  unfold State.switchIn
  split
  · exact refl s
  · refine SameWorld.trans ?_ (resume _)
    refine SameWorld.trans ?_ (switchState _ n)
    refine SameWorld.trans ?_ (deliver _ n)
    cases restore
    · exact SameWorld.trans (SameWorld.trans (withKernel s _) (updThread _ n _)) (setCurrent _ (some n))
    · refine SameWorld.trans ?_ (setCpu _ _)
      exact SameWorld.trans (SameWorld.trans (withKernel s _) (updThread _ n _)) (setCurrent _ (some n))

theorem switchTo (s : State) (n : Nat) (yield : Bool) : SameWorld s (s.switchTo n yield) := by
  unfold State.switchTo
  split
  · exact switchIn s n false
  · exact (saveCurrent s _).trans (switchIn _ n true)

theorem request (s : State) (b : Bool) : SameWorld s (s.request b) := setKernel s _

theorem clearRequest (s : State) : SameWorld s s.clearRequest := withKernel s _

theorem reenterWait (s : State) (c : Nat) : SameWorld s (s.reenterWait c) :=
  (((unready s c).trans (updThread _ c _)).trans (collectPending _ c)).trans (readyForCallback _ c)

theorem recheckWait (s : State) : SameWorld s s.recheckWait := by
  unfold State.recheckWait
  split
  · exact refl s
  · exact ite _ ((reenterWait s _).trans (request _ _)) (refl s)

theorem pickNext (s : State) (forced : Bool) : SameWorld s (s.pickNext forced) := by
  unfold State.pickNext
  split
  · exact (switchTo s _ _).trans (recheckWait _)
  · have h : SameWorld s ((s.saveCurrent (!forced)).setCurrent none) := (saveCurrent s _).trans (setCurrent _ _)
    refine h.trans ?_
    simp only
    split
    · exact (switchTo _ _ _).trans (recheckWait _)
    · exact setRun _ _

/-- `Reschedule` changes nothing outside the kernel's state, the live context and the run status (R313). -/
theorem reschedule (s : State) (forced : Bool) : SameWorld s (s.reschedule forced) := by
  unfold State.reschedule
  refine (clearRequest s).trans ?_
  simp only
  split
  · exact pickNext _ forced
  · split
    · exact (ite _ (switchState _ _) (refl _)).trans (resume _)
    · exact pickNext _ forced

/-- The end of a host action changes nothing outside them either (R286, R289). -/
theorem endHost (s : State) (ask : Option Bool) : SameWorld s (s.endHost ask) := by
  unfold State.endHost
  split
  · exact setRun s _
  · split
    · exact reschedule s _
    · exact ite _ (reschedule s _) (resume s)

theorem continueRun (s : State) (c : Nat) : SameWorld s (s.continueRun c) := by
  unfold State.continueRun
  refine (collectPending s c).trans (SameWorld.trans ?_ (endHost _ _))
  exact ite _ (switchState _ c) (refl _)

theorem callbackReturn (s : State) : SameWorld s s.callbackReturn := by
  unfold State.callbackReturn
  split
  · exact endHost s _
  · split
    · exact endHost s _
    · rename_i c t _ _ ctx w rest _
      have h : SameWorld s { (s.updThread c fun t =>
          { t with callbackStack := rest, callbacksRunning := t.callbacksRunning.tail }) with cpu := ctx } :=
        (updThread s c _).trans (setCpu _ _)
      refine h.trans ?_
      split
      · exact continueRun _ _
      · simp only
        split
        · exact continueRun _ _
        · split
          · exact ((updThread _ _ _).trans (deliver _ _)).trans (continueRun _ _)
          · exact (((updThread _ _ _).trans (updThread _ _ _)).trans (reenterWait _ _)).trans (reschedule _ _)

theorem endRecords (s : State) (rs : List WaitRecord) (r : Option Word) : SameWorld s (s.endRecords rs r) :=
  foldl (fun (s : State) (e : WaitRecord) => (s.unscheduleTimer e.timer).endWait e.thread e.waitObject r)
    (fun s e => (unscheduleTimer s e.timer).trans (endWait _ _ _ _)) rs s

theorem cancelAll (s : State) (uid : Nat) (p : Payload) (st : Word) : SameWorld s (s.cancelAll uid p st) :=
  (setPayload s uid _).trans (endRecords _ _ _)

theorem deletePrimitive (s : State) (uid : Nat) (p : Payload) : SameWorld s (s.deletePrimitive uid p) :=
  (cancelAll s uid p _).trans (withKernel _ _)

theorem scanSemaphore (s : State) (uid : Nat) : SameWorld s (s.scanSemaphore uid) := by
  unfold State.scanSemaphore
  split
  · exact refl s
  · exact (setPayload s uid _).trans (endRecords _ _ _)

theorem signalSemaphore (s t : State) (uid : Nat) (x : Semaphore) (n : Nat) (h : s.signalSemaphore uid x n = some t) :
    SameWorld s t := by
  unfold State.signalSemaphore at h
  split at h
  · cases h
  · cases h; exact (setPayload s uid _).trans (scanSemaphore _ _)

theorem grantMutex (s : State) (uid : Nat) : SameWorld s (s.grantMutex uid) := by
  unfold State.grantMutex
  split
  · exact refl s
  · split
    · split
      · exact setPayload s uid _
      · exact (setPayload s uid _).trans (endRecords _ _ _)
    · exact refl s

theorem unlockMutex (s t : State) (uid : Nat) (x : Mutex) (n : Nat) (h : s.unlockMutex uid x n = some t) :
    SameWorld s t := by
  unfold State.unlockMutex at h
  split at h
  · cases h
  · cases h; exact (setPayload s uid _).trans (grantMutex _ _)

theorem blockOn (s t : State) (uid : Nat) (reason : WaitReason) (m : TimeoutMin) (cond : WaitCond) (tp : Word)
    (allow : Bool) (h : s.blockOn uid reason m cond tp allow = .ok t) : SameWorld s t := by
  unfold State.blockOn at h
  split at h
  · simp only at h
    split at h
    · cases h; exact (setPayload s uid _).trans (waitCurrent _ _ _)
    · split at h
      · cases h
      · cases h
        exact ((schedule s _ _).trans (setPayload _ uid _)).trans (waitCurrent _ _ _)
  · cases h; exact refl s

theorem waitSemaphore (s t : State) (uid : Nat) (x : Semaphore) (n : Nat) (tp : Word) (allow : Bool)
    (h : s.waitSemaphore uid x n tp allow = .ok t) : SameWorld s t := by
  unfold State.waitSemaphore at h
  split at h
  · cases h; exact setPayload s uid _
  · exact blockOn s t _ _ _ _ _ _ h

theorem lockMutex (s t : State) (uid : Nat) (x : Mutex) (n : Nat) (tp : Word) (allow : Bool)
    (h : s.lockMutex uid x n tp allow = .ok t) : SameWorld s t := by
  unfold State.lockMutex at h
  split at h
  · cases h; exact setPayload s uid _
  · split at h
    · cases h; exact setPayload s uid _
    · exact blockOn s t _ _ _ _ _ _ h

theorem changePriority (s : State) (uid : Nat) (t : Thread) (p : Fin 128) : SameWorld s (s.changePriority uid t p) := by
  unfold State.changePriority
  simp only
  refine SameWorld.trans ?_ (withKernel _ _)
  split
  · exact SameWorld.trans (SameWorld.trans (unready s uid) (updThread _ uid _)) (withKernel _ _)
  · exact SameWorld.trans (unready s uid) (updThread _ uid _)

theorem suspendThread (s u : State) (uid : Nat) (t : Thread) (h : s.suspendThread uid t = some u) : SameWorld s u := by
  unfold State.suspendThread at h
  split at h <;> cases h
  · exact updThread s uid _
  · exact (unready s uid).trans (updThread _ uid _)
  · exact updThread s uid _

theorem resumeThread (s u : State) (uid : Nat) (t : Thread) (h : s.resumeThread uid t = some u) : SameWorld s u := by
  unfold State.resumeThread at h
  split at h <;> cases h
  · exact makeReady s uid _
  · exact (updThread s uid _).trans (readyForCallback _ _)

theorem notifyCallback (s : State) (cb : Nat) (c : Callback) (arg : Word) : SameWorld s (s.notifyCallback cb c arg) :=
  (setPayload s cb _).trans (makePending _ _)

theorem deleteCallback (s : State) (cb : Nat) (c : Callback) : SameWorld s (s.deleteCallback cb c) :=
  (withKernel s _).trans (updThread _ _ _)

end SameWorld

end Sys2Proof.Machine
end

