-- ==== Sys2Proof/Laws/Kept.lean ====
section
/-! SUPPORT. What no operation of the machine takes away: the parameters, time and draws that never go back, and the canonical
form of memory, for every shared operation that changes more than the kernel's state. -/

namespace Sys2Proof.Machine

namespace Kept

theorem refl (s : State) : Kept s s := ⟨rfl, Nat.le_refl _, Nat.le_refl _, fun h => h⟩

theorem trans {s t u : State} (h : Kept s t) (k : Kept t u) : Kept s u :=
  ⟨k.par.trans h.par, Nat.le_trans h.cycles k.cycles, Nat.le_trans h.draws k.draws, fun w => k.mem (h.mem w)⟩

theorem foldl {α : Type} (f : State → α → State) (hf : ∀ s a, Kept s (f s a)) :
    ∀ (l : List α) (s : State), Kept s (l.foldl f s)
  | [], s => refl s
  | a :: l, s => (hf s a).trans (foldl f hf l (f s a))

/-! ## Single updates -/

theorem setCpu (s : State) (c : Context) : Kept s { s with cpu := c } := (SameWorld.setCpu s c).kept

theorem setRun (s : State) (r : RunStatus) : Kept s { s with run := r } := (SameWorld.setRun s r).kept

theorem setKernel (s : State) (k : Kernel) : Kept s { s with kernel := k } := (SameWorld.setKernel s k).kept

theorem withKernel (s : State) (f : Kernel → Kernel) : Kept s (s.withKernel f) := (SameWorld.withKernel s f).kept

theorem setGpu (s : State) (g : Gpu) : Kept s { s with gpu := g } := ⟨rfl, Nat.le_refl _, Nat.le_refl _, fun h => h⟩

theorem withGpu (s : State) (f : Gpu → Gpu) : Kept s (s.withGpu f) := setGpu s _

theorem drew (s : State) (n : Nat) : Kept s (s.drew n) := ⟨rfl, Nat.le_refl _, Nat.le_add_right _ _, fun h => h⟩

theorem charge (s : State) (n : Nat) : Kept s { s with cycles := s.cycles + n } :=
  ⟨rfl, Nat.le_add_right _ _, Nat.le_refl _, fun h => h⟩

theorem haltHere (s : State) (r : HaltReason) : Kept s (s.haltHere r) := setRun s _

theorem advance (s : State) : Kept s s.advance := setCpu s _

theorem setX (s : State) (r : Reg) (v : Word) : Kept s (s.setX r v) := setCpu s _

theorem setF (s : State) (r : FReg) (v : Word) : Kept s (s.setF r v) := setCpu s _

theorem setHiLo (s : State) (h l : Word) : Kept s (s.setHiLo h l) := setCpu s _

theorem halted (s : State) (r : HaltReason) : Kept s (s.halted r) := (advance s).trans (setRun _ _)

theorem setResult (s : State) (r : Reg) (v : Option Word) : Kept s (s.setResult r v) := by
  cases v
  · exact refl s
  · exact setX s r _

/-! ## Memory -/

theorem storeBytes (s : State) (pa : Nat) (bs : List Byte) : Kept s (s.storeBytes pa bs) :=
  ⟨rfl, Nat.le_refl _, Nat.le_refl _, storeBytes_mem_wf s pa bs⟩

theorem storeChecked (s t : State) (a : Word) (bs : List Byte) (h : s.storeChecked a bs = .ok t) : Kept s t := by
  obtain ⟨pa, _, rfl⟩ := (State.storeChecked_ok s t a bs).mp h
  exact storeBytes s pa bs

theorem writeOut (s t : State) (out p : Word) (h : s.writeOut out p = .ok t) : Kept s t := by
  unfold State.writeOut at h
  split at h
  · cases h; exact refl s
  · exact storeChecked s t out _ h

theorem writeGuest : ∀ (bs : List Byte) (s t : State) (a : Word), s.writeGuest a bs = .ok t → Kept s t
  | [], s, t, a, h => by cases h; exact refl s
  | b :: bs, s, t, a, h => by
    unfold State.writeGuest at h
    split at h
    · cases h
    · rename_i s1 h1
      exact (storeChecked s s1 a [b] h1).trans (writeGuest bs s1 t _ h)

theorem geWriteByte (s : State) (a : Word) (b : Byte) : Kept s (s.geWriteByte a b) := by
  unfold State.geWriteByte
  split
  · exact refl s
  · exact storeBytes s _ _

theorem geWrite : ∀ (bs : List Byte) (s : State) (a : Word), Kept s (s.geWrite a bs)
  | [], s, _ => refl s
  | b :: bs, s, a => (geWriteByte s a b).trans (geWrite bs _ _)

/-! ## The GPU -/

theorem writePixel (s : State) (px py : Nat) (v : Word) : Kept s (s.writePixel px py v) := geWrite _ s _

theorem writeDepth (s : State) (px py : Nat) (z : Int) : Kept s (s.writeDepth px py z) := geWrite _ s _

theorem writeFragment (s : State) (px py : Nat) (z : Int) (c : Rgba) : Kept s (s.writeFragment px py z c) := by
  unfold State.writeFragment
  simp only
  split
  · exact (writePixel s px py _).trans (writeDepth _ _ _ _)
  · exact writePixel s px py _

theorem clearColour (s : State) (f : Fragment) : Kept s (s.clearColour f) := by
  unfold State.clearColour
  split
  · exact refl s
  · exact writePixel s _ _ _

theorem clearFragment (s : State) (through : Bool) (f : Fragment) : Kept s (s.clearFragment through f) := by
  unfold State.clearFragment
  split
  · exact (clearColour s f).trans (writeDepth _ _ _ _)
  · exact clearColour s f

theorem shade (s : State) (d : DrawContext) (f : Fragment) : Kept s (s.shade d f) := by
  unfold State.shade
  simp only
  split
  · exact refl s
  · split
    · exact clearFragment s _ f
    · split
      · exact refl s
      · split
        · exact refl s
        · split
          · exact refl s
          · exact writeFragment s _ _ _ _

theorem drawPrimitive (d : DrawContext) (v : Nat → GeVertex) (seed : Nat) (s : State) (k : Nat) (p : Primitive) :
    Kept s (s.drawPrimitive d v seed k p) :=
  foldl (fun (s : State) (f : Fragment) => s.shade d f) (fun s f => shade s d f) _ s

theorem drawAll (d : DrawContext) (v : Nat → GeVertex) (seed : Nat) :
    ∀ (ps : List Primitive) (s : State) (k : Nat), Kept s (State.drawAll d v seed s k ps)
  | [], s, _ => refl s
  | p :: ps, s, k => (drawPrimitive d v seed s k p).trans (drawAll d v seed ps _ _)

theorem draw (s : State) (through : Bool) (type count : Nat) (vertex : Nat → GeVertex) :
    Kept s (s.draw through type count vertex) :=
  Kept.trans (Kept.trans (setGpu s _) (drawAll _ _ _ _ _ _)) (drew _ 1)

theorem prim (s : State) (p : BitVec 24) : Kept s (s.prim p) := by
  unfold State.prim
  simp only
  split
  · exact refl s
  · exact Kept.trans (draw s _ _ _ _) (setGpu _ _)

theorem command (s : State) (id : Nat) (l : GeList) (cmd : BitVec 8) (p : BitVec 24) : Kept s (s.command id l cmd p) := by
  unfold State.command
  simp only
  split
  · exact Kept.trans (setGpu s _) (prim _ _)
  · exact setGpu s _

theorem geOperation (s : State) (id : Nat) (o : GeOp) : Kept s (s.geOperation id o) := by
  unfold State.geOperation
  split
  · exact withGpu s _
  · split
    · exact refl s
    · exact withGpu s _
  · split
    · exact refl s
    · exact command s _ _ _ _
  · exact draw s _ _ _ _
  · exact geWrite _ s _

theorem executeCommand (s : State) (id : Nat) (l : GeList) (w : Word) : Kept s (s.executeCommand id l w) := by
  unfold State.executeCommand
  simp only
  split
  · exact command s _ _ _ _
  · exact Kept.trans (withGpu s _) (foldl (fun (s : State) (o : GeOp) => s.geOperation id o)
      (fun s o => geOperation s id o) _ _)

theorem completeList (s : State) (id : Nat) (l : GeList) : Kept s (s.completeList id l) := by
  unfold State.completeList
  refine Kept.trans (Kept.trans (withGpu s _) (foldl _ ?_ _ _)) (SameWorld.request _ _).kept
  intro s t
  refine foldl _ ?_ _ _
  intro s e
  split
  · exact (SameWorld.endWait s _ _ _).kept
  · exact refl s

theorem endLists (s : State) (rest : Option HostScript) (ask : Option Bool) : Kept s (s.endLists rest ask) := by
  unfold State.endLists
  split
  · exact (SameWorld.endHost s _).kept
  · exact setRun s _

theorem geStep (s : State) (rest : Option HostScript) : Kept s (s.geStep rest) := by
  unfold State.geStep
  split
  · exact endLists s _ _
  · split
    · exact withGpu s _
    · split
      · exact Kept.trans (withGpu s _) (endLists _ _ _)
      · split
        · exact completeList s _ _
        · simp only
          split
          · exact executeCommand s _ _ _
          · split
            · exact Kept.trans (executeCommand s _ _ _) (completeList _ _ _)
            · exact executeCommand s _ _ _

theorem waitList (s : State) (id : Nat) (l : GeList) : Kept s (s.waitList id l) := by
  unfold State.waitList
  split
  · exact refl s
  · exact Kept.trans (withGpu s _) (SameWorld.waitCurrent _ _ _).kept

theorem listEnqueue (s t : State) (start stall : Word) (id : Nat) (h : s.listEnqueue start stall = some (id, t)) :
    Kept s t := by
  unfold State.listEnqueue at h
  split at h
  · cases h
  · cases h; exact withGpu s _

theorem listUpdateStall (s t : State) (id : Nat) (stall : Word) (h : s.listUpdateStall id stall = some t) : Kept s t := by
  unfold State.listUpdateStall at h
  split at h
  · cases h
  · split at h
    · cases h; exact withGpu s _
    · cases h

/-! ## Event flags, whose scan writes guest memory -/

theorem grantFlags : ∀ (rs : List (WaitRecord × Word)) (s t : State), s.grantFlags rs = .ok t → Kept s t
  | [], s, t, h => by cases h; exact refl s
  | (r, p) :: rs, s, t, h => by
    unfold State.grantFlags at h
    split at h
    · split at h
      · cases h
      · rename_i s1 h1
        exact ((writeOut s s1 _ _ h1).trans (SameWorld.endRecords s1 _ _).kept).trans (grantFlags rs _ t h)
    · exact (SameWorld.endRecords s _ _).kept.trans (grantFlags rs _ t h)

theorem scanEventFlag (s t : State) (uid : Nat) (h : s.scanEventFlag uid = .ok t) : Kept s t := by
  unfold State.scanEventFlag at h
  split at h
  · cases h; exact refl s
  · exact (SameWorld.setPayload s uid _).kept.trans (grantFlags _ _ t h)

theorem waitEventFlag (s t : State) (uid : Nat) (x : EventFlag) (bits : Word) (mode : FlagMode) (clear : Bool)
    (out tp : Word) (allow : Bool) (h : s.waitEventFlag uid x bits mode clear out tp allow = .ok t) : Kept s t := by
  unfold State.waitEventFlag at h
  split at h
  · exact (SameWorld.setPayload s uid _).kept.trans (writeOut _ t _ _ h)
  · exact (SameWorld.blockOn s t _ _ _ _ _ _ h).kept

theorem setEventFlag (s t : State) (uid : Nat) (x : EventFlag) (b : Word) (h : s.setEventFlag uid x b = .ok t) :
    Kept s t := by
  unfold State.setEventFlag at h
  exact (SameWorld.setPayload s uid _).kept.trans (scanEventFlag _ t uid h)

/-! ## Threads and the host call -/

theorem createThread (s t : State) (name : String) (entry : Word) (p : Fin 128) (stack m : Nat) (gp : Word) (a r : Bool)
    (uid : Nat) (h : s.createThread name entry p stack m gp a r = some (uid, t)) : Kept s t := by
  unfold State.createThread at h
  split at h
  · cases h
  · simp only at h
    split at h
    · cases h
    · cases h; exact setKernel s _

theorem startThread (s u : State) (uid : Nat) (t : Thread) (len : Nat) (args : Word)
    (h : s.startThread uid t len args = .ok u) : Kept s u := by
  unfold State.startThread at h
  simp only at h
  split at h
  · cases h
  · split at h
    · cases h
    · rename_i s1 h1
      cases h
      refine (writeGuest _ s s1 _ h1).trans ?_
      exact Kept.trans ((SameWorld.updThread s1 uid _).trans (SameWorld.makeReady _ _ _)).kept (drew _ _)

theorem dropWaits (s : State) (uid : Nat) : Kept s (s.dropWaits uid) := by
  unfold State.dropWaits
  simp only
  exact Kept.trans (Kept.trans (withKernel s _) (withKernel _ _)) (setGpu _ _)

theorem exitThread (s : State) : Kept s s.exitThread := by
  unfold State.exitThread
  split
  · exact refl s
  · refine Kept.trans ?_ (SameWorld.setCurrent _ _).kept
    exact Kept.trans (Kept.trans (SameWorld.unready s _).kept (dropWaits _ _)) (SameWorld.updThread _ _ _).kept

theorem deleteThread (s : State) (uid : Nat) (t : Thread) : Kept s (s.deleteThread uid t) := by
  unfold State.deleteThread
  simp only
  have h : Kept s ((((((s.unready uid).dropWaits uid).withKernel fun k =>
      { k with userAllocator := (k.userAllocator.free t.stackBase).getD k.userAllocator }).kernel.callbacksOf uid).foldl
      (fun s cb => s.withKernel fun k => k.remove cb) (((s.unready uid).dropWaits uid).withKernel fun k =>
      { k with userAllocator := (k.userAllocator.free t.stackBase).getD k.userAllocator })).withKernel
        fun k => k.remove uid) := by
    refine Kept.trans ?_ (withKernel _ _)
    refine Kept.trans ?_ (foldl _ (fun s cb => withKernel s _) _ _)
    exact Kept.trans (Kept.trans (SameWorld.unready s uid).kept (dropWaits _ uid)) (withKernel _ _)
  split
  · exact Kept.trans h (SameWorld.setCurrent _ _).kept
  · exact h

theorem poison (s : State) : Kept s s.poison := Kept.trans (setCpu s _) (drew _ 8)

theorem results (s : State) (r : HostResult) (optOut : Bool) (h : Kept s r.state) : Kept s (r.results optOut) := by
  have h0 := (h.trans (setResult _ 2#5 r.v0)).trans (setResult _ 3#5 r.v1)
  unfold HostResult.results
  split
  · exact h0
  · exact h0.trans (poison _)

/-- The end of a host call keeps what its behaviour kept (R286, R287). -/
theorem finish (s : State) (r : HostResult) (optOut : Bool) (h : Kept s r.state) : Kept s (r.finish optOut) := by
  have h1 := results s r optOut h
  unfold HostResult.finish
  split
  · exact Kept.trans h1 (setRun _ _)
  · exact Kept.trans h1 (SameWorld.endHost _ _).kept

end Kept

end Sys2Proof.Machine
end

