-- ==== Sys2Proof/Laws/HostKept.lean ====
section
/-! SUPPORT. No host behaviour takes away what a step keeps: one lemma per behaviour, for `hostCall`. -/

namespace Sys2Proof.Machine

namespace Kept

theorem hostCreateThread (s : State) : Kept s (Sys2Proof.Machine.hostCreateThread s).state := by
  unfold Sys2Proof.Machine.hostCreateThread
  simp only
  (repeat' split) <;> first | exact refl s | exact createThread s _ _ _ _ _ _ _ _ _ _ ‹_›

theorem hostExitThread (s : State) : Kept s (Sys2Proof.Machine.hostExitThread s).state := exitThread s

theorem hostDeleteThread (s : State) : Kept s (Sys2Proof.Machine.hostDeleteThread s).state := by
  unfold Sys2Proof.Machine.hostDeleteThread
  (repeat' split) <;> first | exact refl s | exact deleteThread s _ _

theorem hostChangePriority (s : State) : Kept s (Sys2Proof.Machine.hostChangePriority s).state := by
  unfold Sys2Proof.Machine.hostChangePriority
  (repeat' split) <;> first | exact refl s | exact (SameWorld.changePriority s _ _ _).kept

theorem hostRotate (s : State) : Kept s (Sys2Proof.Machine.hostRotate s).state := by
  unfold Sys2Proof.Machine.hostRotate
  (repeat' split) <;> first | exact refl s | exact setKernel s _

theorem hostSuspend (s : State) : Kept s (Sys2Proof.Machine.hostSuspend s).state := by
  unfold Sys2Proof.Machine.hostSuspend
  (repeat' split) <;> first | exact refl s | exact (SameWorld.suspendThread s _ _ _ ‹_›).kept

theorem hostResume (s : State) : Kept s (Sys2Proof.Machine.hostResume s).state := by
  unfold Sys2Proof.Machine.hostResume
  (repeat' split) <;> first | exact refl s | exact (SameWorld.resumeThread s _ _ _ ‹_›).kept

theorem hostCallbackMode (s : State) : Kept s (Sys2Proof.Machine.hostCallbackMode s).state := by
  unfold Sys2Proof.Machine.hostCallbackMode
  (repeat' split) <;> first | exact refl s | exact ((SameWorld.updThread s _ _).trans (SameWorld.collectPending _ _)).kept

theorem hostWakeup (s : State) : Kept s (Sys2Proof.Machine.hostWakeup s).state := by
  unfold Sys2Proof.Machine.hostWakeup
  (repeat' split) <;> first | exact refl s | exact (SameWorld.endWait s _ _ _).kept

theorem hostDelay (s : State) : Kept s (Sys2Proof.Machine.hostDelay s).state := by
  unfold Sys2Proof.Machine.hostDelay
  (repeat' split) <;> first | exact refl s | exact ((SameWorld.schedule s _ _).trans (SameWorld.waitCurrent _ _ _)).kept

theorem hostCreate (s : State) (name : String) (p : Payload) : Kept s (Sys2Proof.Machine.hostCreate s name p).state := by
  unfold Sys2Proof.Machine.hostCreate
  (repeat' split) <;> first | exact refl s | exact setKernel s _

theorem hostCancel (s : State) (p : Option Payload) : Kept s (Sys2Proof.Machine.hostCancel s p).state := by
  unfold Sys2Proof.Machine.hostCancel
  (repeat' split) <;> first | exact refl s | exact (SameWorld.cancelAll s _ _ _).kept

theorem hostDelete (s : State) (p : Option Payload) : Kept s (Sys2Proof.Machine.hostDelete s p).state := by
  unfold Sys2Proof.Machine.hostDelete
  (repeat' split) <;> first | exact refl s | exact (SameWorld.deletePrimitive s _ _).kept

theorem hostCreateSemaphore (s : State) : Kept s (Sys2Proof.Machine.hostCreateSemaphore s).state := by
  unfold Sys2Proof.Machine.hostCreateSemaphore
  (repeat' split) <;> first | exact refl s | exact hostCreate s _ _

theorem hostSignalSemaphore (s : State) : Kept s (Sys2Proof.Machine.hostSignalSemaphore s).state := by
  unfold Sys2Proof.Machine.hostSignalSemaphore
  (repeat' split) <;> first | exact refl s | exact (SameWorld.signalSemaphore s _ _ _ _ ‹_›).kept

theorem hostUnlockMutex (s : State) : Kept s (Sys2Proof.Machine.hostUnlockMutex s).state := by
  unfold Sys2Proof.Machine.hostUnlockMutex
  (repeat' split) <;> first | exact refl s | exact (SameWorld.unlockMutex s _ _ _ _ ‹_›).kept

theorem hostClearEventFlag (s : State) : Kept s (Sys2Proof.Machine.hostClearEventFlag s).state := by
  unfold Sys2Proof.Machine.hostClearEventFlag
  (repeat' split) <;> first | exact refl s | exact (SameWorld.setPayload s _ _).kept

theorem hostCreateCallback (s : State) : Kept s (Sys2Proof.Machine.hostCreateCallback s).state := by
  unfold Sys2Proof.Machine.hostCreateCallback
  (repeat' split) <;> first | exact refl s | exact hostCreate s _ _

theorem hostDeleteCallback (s : State) : Kept s (Sys2Proof.Machine.hostDeleteCallback s).state := by
  unfold Sys2Proof.Machine.hostDeleteCallback
  (repeat' split) <;> first | exact refl s | exact (SameWorld.deleteCallback s _ _).kept

theorem hostNotifyCallback (s : State) : Kept s (Sys2Proof.Machine.hostNotifyCallback s).state := by
  unfold Sys2Proof.Machine.hostNotifyCallback
  (repeat' split) <;> first | exact refl s | exact (SameWorld.notifyCallback s _ _ _).kept

theorem hostNewBlock (s : State) (addr : Nat) (a : Allocator) : Kept s (Sys2Proof.Machine.hostNewBlock s addr a).state := by
  unfold Sys2Proof.Machine.hostNewBlock
  (repeat' split) <;> first | exact refl s | exact setKernel s _

theorem hostAlloc (s : State) : Kept s (Sys2Proof.Machine.hostAlloc s).state := by
  unfold Sys2Proof.Machine.hostAlloc
  (repeat' split) <;> first | exact refl s | exact hostNewBlock s _ _

theorem hostAllocAt (s : State) : Kept s (Sys2Proof.Machine.hostAllocAt s).state := by
  unfold Sys2Proof.Machine.hostAllocAt
  (repeat' split) <;> first | exact refl s | exact hostNewBlock s _ _

theorem hostFree (s : State) : Kept s (Sys2Proof.Machine.hostFree s).state := by
  unfold Sys2Proof.Machine.hostFree
  (repeat' split) <;> first | exact refl s | exact setKernel s _

theorem hostListEnqueue (s : State) : Kept s (Sys2Proof.Machine.hostListEnqueue s).state := by
  unfold Sys2Proof.Machine.hostListEnqueue
  (repeat' split) <;> first | exact refl s | exact listEnqueue s _ _ _ _ ‹_›

theorem hostListUpdateStall (s : State) : Kept s (Sys2Proof.Machine.hostListUpdateStall s).state := by
  unfold Sys2Proof.Machine.hostListUpdateStall
  (repeat' split) <;> first | exact refl s | exact listUpdateStall s _ _ _ ‹_›

theorem hostListSync (s : State) : Kept s (Sys2Proof.Machine.hostListSync s).state := by
  unfold Sys2Proof.Machine.hostListSync
  (repeat' split) <;> first | exact refl s | exact waitList s _ _

theorem hostDrawSync (s : State) : Kept s (Sys2Proof.Machine.hostDrawSync s).state := by
  unfold Sys2Proof.Machine.hostDrawSync
  (repeat' split) <;> first | exact refl s | exact waitList s _ _

theorem hostStartThread (s : State) (r : HostResult) (h : Sys2Proof.Machine.hostStartThread s = .ok r) : Kept s r.state := by
  unfold Sys2Proof.Machine.hostStartThread at h
  simp only at h
  (repeat' split at h) <;> cases h <;> first | exact refl s | exact startThread s _ _ _ _ _ ‹_›

theorem hostWaitSemaphore (s : State) (r : HostResult) (h : Sys2Proof.Machine.hostWaitSemaphore s = .ok r) : Kept s r.state := by
  unfold Sys2Proof.Machine.hostWaitSemaphore at h
  (repeat' split at h) <;> cases h <;> first | exact refl s | exact (SameWorld.waitSemaphore s _ _ _ _ _ _ ‹_›).kept

theorem hostLockMutex (s : State) (r : HostResult) (h : Sys2Proof.Machine.hostLockMutex s = .ok r) : Kept s r.state := by
  unfold Sys2Proof.Machine.hostLockMutex at h
  (repeat' split at h) <;> cases h <;> first | exact refl s | exact (SameWorld.lockMutex s _ _ _ _ _ _ ‹_›).kept

theorem hostWaitEventFlag (s : State) (r : HostResult) (h : Sys2Proof.Machine.hostWaitEventFlag s = .ok r) : Kept s r.state := by
  unfold Sys2Proof.Machine.hostWaitEventFlag at h
  (repeat' split at h) <;> cases h <;> first | exact refl s | exact waitEventFlag s _ _ _ _ _ _ _ _ _ ‹_›

theorem hostSetEventFlag (s : State) (r : HostResult) (h : Sys2Proof.Machine.hostSetEventFlag s = .ok r) : Kept s r.state := by
  unfold Sys2Proof.Machine.hostSetEventFlag at h
  (repeat' split at h) <;> cases h <;> first | exact refl s | exact setEventFlag s _ _ _ _ ‹_›

/-- What an operation leaves is kept (R286). -/
theorem runCall (op : KernelCall) (s : State) (r : HostResult) (h : Sys2Proof.Machine.runCall op s = .ok r) :
    Kept s r.state := by
  cases op <;> simp only [Sys2Proof.Machine.runCall, Except.ok.injEq] at h <;>
    first
    | (subst h; first
        | exact refl s
        | exact withKernel s _
        | exact hostCreateThread s
        | exact hostExitThread s
        | exact hostDeleteThread s
        | exact hostChangePriority s
        | exact hostRotate s
        | exact hostSuspend s
        | exact hostResume s
        | exact hostCallbackMode s
        | exact (SameWorld.waitCurrent s _ _).kept
        | exact hostWakeup s
        | exact hostDelay s
        | exact setKernel s _
        | exact hostCreateSemaphore s
        | exact hostSignalSemaphore s
        | exact hostCancel s _
        | exact hostDelete s _
        | exact hostCreate s _ _
        | exact hostUnlockMutex s
        | exact hostClearEventFlag s
        | exact hostCreateCallback s
        | exact hostDeleteCallback s
        | exact hostNotifyCallback s
        | exact hostAlloc s
        | exact hostAllocAt s
        | exact hostFree s
        | exact hostListEnqueue s
        | exact hostListUpdateStall s
        | exact hostListSync s
        | exact hostDrawSync s)
    | exact hostStartThread s r h
    | exact hostWaitSemaphore s r h
    | exact hostLockMutex s r h
    | exact hostWaitEventFlag s r h
    | exact hostSetEventFlag s r h

/-- What one operation of a script leaves is kept (R286, R292). -/
theorem hostOp (r q : HostResult) (o : HostOp) (h : r.run o = .ok q) : Kept r.state q.state := by
  unfold HostResult.run at h
  split at h
  · split at h
    · cases h
    · cases h; exact writeGuest _ _ _ _ ‹_›
  · split at h
    · cases h
    · cases h; exact (Kept.trans (setCpu r.state _) (runCall _ _ _ ‹_›)).trans (setCpu _ _)
  · cases h; exact (SameWorld.wakeAll _ _ _).kept
  · cases h; exact hostCreate _ _ _
  · cases h; exact hostCreate _ _ _
  · split at h <;> cases h <;> first | exact refl _ | exact setKernel _ _
  · cases h; exact refl _
  · cases h; exact refl _

/-- What a script leaves is kept (R286, R292). -/
theorem runAll : ∀ (os : List HostOp) (r : HostResult) (q : HostResult × List HostOp), r.runAll os = .ok q →
    Kept r.state q.1.state
  | [], r, q, h => by cases h; exact refl _
  | o :: os, r, q, h => by
    unfold HostResult.runAll at h
    split at h
    · cases h
    · split at h
      · cases h; exact hostOp r _ o ‹_›
      · exact (hostOp r _ o ‹_›).trans (runAll os _ q h)

theorem endScript (s : State) (r : HostResult) (origin : ScriptOrigin) (h : Kept s r.state) :
    Kept s (r.endScript origin) := by
  unfold HostResult.endScript
  split
  · exact finish s r _ h
  · split <;> exact h.trans (setRun _ _)

/-- What a script leaves where it stops or ends is kept (R286, R292, R355). -/
theorem runScript (s t : State) (f : HostScript) (h : s.runScript f = .ok t) : Kept s t := by
  unfold State.runScript at h
  split at h
  · cases h
  · have k := runAll _ _ _ ‹_›
    split at h <;> cases h
    · exact Kept.trans k (setRun _ _)
    · exact endScript s _ _ k

theorem scriptStep (s : State) (f : HostScript) : Kept s (s.scriptStep f) := by
  unfold State.scriptStep
  split
  · exact haltHere s _
  · exact runScript s _ f ‹_›

/-- What a host behaviour leaves is kept (R286). -/
theorem runBehaviour (b : HleBehaviour) (optOut : Bool) (s t : State)
    (h : Sys2Proof.Machine.runBehaviour b optOut s = .ok t) : Kept s t := by
  unfold Sys2Proof.Machine.runBehaviour at h
  split at h
  · cases h; exact finish s _ _ (refl s)
  · split at h <;> cases h
    exact finish s _ _ (runCall _ s _ ‹_›)
  · exact runScript s t _ h

/-- A host call keeps what a step keeps (R286). -/
theorem hostCall (s : State) (code : BitVec 20) : Kept s (s.hostCall code) := by
  unfold State.hostCall
  split
  · exact haltHere s _
  · exact runBehaviour _ _ s _ ‹_›

/-! ## Events (R298, R323) -/

theorem scanPrimitive (s t : State) (r : WaitReason) (h : s.scanPrimitive r = .ok t) : Kept s t := by
  unfold State.scanPrimitive at h
  split at h
  · cases h; exact (SameWorld.scanSemaphore s _).kept
  · cases h; exact (SameWorld.grantMutex s _).kept
  · exact scanEventFlag s t _ h
  · cases h; exact refl s

theorem fireTimeout (s t : State) (thread w : Nat) (cell : Word) (r : WaitReason)
    (h : s.fireTimeout thread w cell r = .ok t) : Kept s t := by
  unfold State.fireTimeout at h
  split at h
  · cases h
  · rename_i s1 h1
    refine (storeChecked s s1 _ _ h1).trans ?_
    exact Kept.trans (Kept.trans (SameWorld.endWait s1 _ _ _).kept (withKernel _ _)) (scanPrimitive _ _ _ h)

theorem fire (s t : State) (a : EventAction) (h : s.fire a = .ok t) : Kept s t := by
  unfold State.fire at h
  split at h
  · exact fireTimeout s t _ _ _ _ h
  · cases h; exact (SameWorld.endWait s _ _ _).kept
  · split at h
    · cases h; exact (SameWorld.wakeAll s _ _).kept
    · cases h; exact refl s
    · exact runScript s t _ h

/-- The firing of an event keeps what a step keeps (R298). -/
theorem fireEvent (s : State) (e : Event) : Kept s (s.fireEvent e) := by
  unfold State.fireEvent
  split
  · exact haltHere s _
  · exact ((SameWorld.unschedule s e.handle).kept.trans (fire _ _ _ ‹_›)).trans (SameWorld.request _ _).kept

theorem orDue (s t : State) (h : Kept s t) : Kept s (s.orDue t) := by
  unfold State.orDue
  split
  · exact fireEvent s _
  · exact h

theorem finishStep (s : State) : Kept s s.finishStep := by
  unfold State.finishStep
  split
  · exact refl s
  · exact charge s _

end Kept

end Sys2Proof.Machine
end

