-- ==== Sys2Proof/Laws/Kernel.lean ====
section
/-! SUPPORT. What a change of the kernel's object table leaves (R305 to R307), and of the GPU's list pool (R354). -/

namespace Sys2Proof.Machine

/-- The slot that was written holds the object. -/
@[simp] theorem Kernel.lookup_put_same (k : Kernel) (u : Nat) (o : KernelObject) : (k.put u o).lookup u = some o := by
  unfold Kernel.put Kernel.lookup
  simp only
  induction k.objects with
  | nil => simp [insertObject]
  | cons c rest ih =>
    obtain ⟨a, p⟩ := c
    unfold insertObject
    split
    · simp
    · split
      · simp
      · rename_i h
        simpa [List.find?_cons, beq_false_of_ne (Ne.symm h)] using ih

/-- Every other slot is as before. -/
theorem Kernel.lookup_put_other (k : Kernel) (u v : Nat) (o : KernelObject) (h : v ≠ u) :
    (k.put u o).lookup v = k.lookup v := by
  unfold Kernel.put Kernel.lookup
  simp only
  induction k.objects with
  | nil => simp [insertObject, beq_false_of_ne (Ne.symm h)]
  | cons c rest ih =>
    obtain ⟨a, p⟩ := c
    unfold insertObject
    split
    · simp [List.find?_cons, beq_false_of_ne (Ne.symm h)]
    · split
      · rename_i h1
        subst h1
        simp [beq_false_of_ne (Ne.symm h)]
      · simp only [List.find?_cons]
        split
        · rfl
        · exact ih

/-- A thread of the table is an object of it. -/
theorem Kernel.lookup_of_thread (k : Kernel) (u : Nat) (t : Thread) (h : k.thread? u = some t) :
    ∃ n, k.lookup u = some { name := n, payload := .thread t } := by
  unfold Kernel.thread? at h
  split at h
  · rename_i heq; cases h; exact ⟨_, heq⟩
  · cases h

/-- A callback of the table is an object of it. -/
theorem Kernel.lookup_of_callback (k : Kernel) (u : Nat) (c : Callback) (h : k.callback? u = some c) :
    ∃ n, k.lookup u = some { name := n, payload := .callback c } := by
  unfold Kernel.callback? at h
  split at h
  · rename_i heq; cases h; exact ⟨_, heq⟩
  · cases h

/-- A change of a thread that exists is one write to its slot. -/
theorem State.updThread_eq (s : State) (u : Nat) (t : Thread) (f : Thread → Thread) (h : s.kernel.thread? u = some t) :
    ∃ n, s.kernel.lookup u = some { name := n, payload := .thread t } ∧
      s.updThread u f = { s with kernel := s.kernel.put u { name := n, payload := .thread (f t) } } := by
  obtain ⟨n, hn⟩ := Kernel.lookup_of_thread _ _ _ h
  refine ⟨n, hn, ?_⟩
  unfold State.updThread State.setPayload
  rw [h]
  simp [hn, State.withKernel]

/-- The thread after a change of it. -/
theorem State.updThread_thread (s : State) (u : Nat) (t : Thread) (f : Thread → Thread) (h : s.kernel.thread? u = some t) :
    (s.updThread u f).kernel.thread? u = some (f t) := by
  obtain ⟨n, _, e⟩ := State.updThread_eq s u t f h
  rw [e]
  simp [Kernel.thread?]

/-- Every other object after a change of a thread. -/
theorem State.updThread_lookup_other (s : State) (u v : Nat) (f : Thread → Thread) (h : v ≠ u) :
    (s.updThread u f).kernel.lookup v = s.kernel.lookup v := by
  unfold State.updThread
  split
  · rfl
  · unfold State.setPayload
    split
    · rfl
    · exact Kernel.lookup_put_other _ _ _ _ h

/-- The list record that was written. -/
@[simp] theorem Gpu.list?_setList_same (g : Gpu) (i : Nat) (l : GeList) : (g.setList i l).list? i = some l := by
  unfold Gpu.setList Gpu.list?
  simp only
  induction g.lists with
  | nil => simp [insertList]
  | cons c rest ih =>
    obtain ⟨a, m⟩ := c
    unfold insertList
    split
    · simp
    · split
      · simp
      · rename_i h
        simpa [List.find?_cons, beq_false_of_ne (Ne.symm h)] using ih

end Sys2Proof.Machine
end

