-- ==== Sys2Proof/Laws/Sched.lean ====
section
/-! SUPPORT. The scheduler's invariant (R309, R311) through the kernel's operations: one lemma per operation. -/

namespace Sys2Proof.Machine

/-! ## What the scheduler reads of an object -/

/-- The state and the priority of a thread; nothing of any other object. -/
def Payload.view (p : Payload) : Option (ThreadState × Fin 128) :=
  match p with
  | .thread t => some (t.state, t.priority)
  | _ => none

/-- The state and the priority of the thread in slot `u`. -/
def Kernel.view (k : Kernel) (u : Nat) : Option (ThreadState × Fin 128) := (k.lookup u).bind fun o => o.payload.view

theorem Kernel.view_thread (k : Kernel) (u : Nat) : k.view u = (k.thread? u).map fun t => (t.state, t.priority) := by
  unfold Kernel.view Kernel.thread?
  cases h : k.lookup u with
  | none => rfl
  | some o => obtain ⟨n, p⟩ := o; cases p <;> rfl

theorem Kernel.view_of_thread {k : Kernel} {u : Nat} {t : Thread} (h : k.thread? u = some t) :
    k.view u = some (t.state, t.priority) := by rw [Kernel.view_thread, h]; rfl

theorem Kernel.view_none_of_thread {k : Kernel} {u : Nat} (h : k.thread? u = none) : k.view u = none := by
  rw [Kernel.view_thread, h]; rfl

/-- The invariant in those terms. -/
theorem schedWf_iff (k : Kernel) : SchedWf k ↔
    (∀ (u : Nat) (p : Fin 128), u ∈ k.ready[p] ↔ k.view u = some (.ready, p)) ∧ (∀ p : Fin 128, k.ready[p].Nodup) ∧
    ∀ u p, k.view u = some (.run, p) → k.current = some u := by
  have e : ∀ u st (p : Fin 128), k.view u = some (st, p) ↔ ∃ t, k.thread? u = some t ∧ t.state = st ∧ t.priority = p := by
    intro u st p
    rw [Kernel.view_thread]
    cases k.thread? u <;> simp
  constructor
  · intro h
    refine ⟨fun u p => (h.ready u p).trans (e u .ready p).symm, h.once, fun u p hv => ?_⟩
    obtain ⟨t, ht, hs, _⟩ := (e u .run p).mp hv
    exact h.run u t ht hs
  · rintro ⟨h1, h2, h3⟩
    exact ⟨fun u p => (h1 u p).trans (e u .ready p), h2, fun u t ht hs => h3 u t.priority ((e _ _ _).mpr ⟨t, ht, hs, rfl⟩)⟩

/-! ## The object table -/

theorem Kernel.view_put (k : Kernel) (u v : Nat) (o : KernelObject) :
    (k.put u o).view v = if v = u then o.payload.view else k.view v := by
  unfold Kernel.view
  by_cases h : v = u
  · subst h; simp
  · rw [Kernel.lookup_put_other _ _ _ _ h, if_neg h]

theorem Kernel.lookup_remove (k : Kernel) (u v : Nat) : (k.remove u).lookup v = if v = u then none else k.lookup v := by
  unfold Kernel.lookup Kernel.remove
  simp only
  induction k.objects with
  | nil => simp
  | cons c rest ih =>
    obtain ⟨a, p⟩ := c
    by_cases ha : a = u
    · subst ha
      by_cases hv : v = a
      · simp [hv]
      · simpa [hv, beq_false_of_ne (Ne.symm hv)] using ih
    · by_cases hv : a = v
      · subst hv; simp [ha]
      · simpa [ha, beq_false_of_ne hv] using ih

theorem Kernel.view_remove (k : Kernel) (u v : Nat) : (k.remove u).view v = if v = u then none else k.view v := by
  unfold Kernel.view
  rw [Kernel.lookup_remove]
  split <;> rfl

theorem Kernel.view_mapPayloads (k : Kernel) (f : Payload → Payload) (hf : ∀ p, (f p).view = p.view) (v : Nat) :
    (k.mapPayloads f).view v = k.view v := by
  unfold Kernel.view Kernel.lookup Kernel.mapPayloads
  simp only
  induction k.objects with
  | nil => rfl
  | cons c rest ih =>
    obtain ⟨a, p⟩ := c
    by_cases h : a = v
    · subst h; simp [hf]
    · simpa [beq_false_of_ne h] using ih

theorem Payload.view_withQueue (p : Payload) (q : List WaitRecord) : (p.withQueue q).view = p.view := by cases p <;> rfl

theorem Payload.view_resort (prio : Nat → Nat) (p : Payload) : (p.resort prio).view = p.view := by
  unfold Payload.resort
  split
  · exact Payload.view_withQueue _ _
  · rfl

theorem Payload.view_enqueue (prio : Nat → Nat) (p : Payload) (r : WaitRecord) : (p.enqueue prio r).view = p.view :=
  Payload.view_withQueue _ _

@[simp] theorem State.setPayload_ready (s : State) (u : Nat) (p : Payload) : (s.setPayload u p).kernel.ready = s.kernel.ready := by
  unfold State.setPayload; split <;> rfl

@[simp] theorem State.setPayload_current (s : State) (u : Nat) (p : Payload) :
    (s.setPayload u p).kernel.current = s.kernel.current := by
  unfold State.setPayload; split <;> rfl

@[simp] theorem State.updThread_ready (s : State) (u : Nat) (f : Thread → Thread) :
    (s.updThread u f).kernel.ready = s.kernel.ready := by
  unfold State.updThread; split <;> simp

@[simp] theorem State.updThread_current (s : State) (u : Nat) (f : Thread → Thread) :
    (s.updThread u f).kernel.current = s.kernel.current := by
  unfold State.updThread; split <;> simp

theorem State.view_setPayload (s : State) (u v : Nat) (p : Payload) :
    (s.setPayload u p).kernel.view v =
      if v = u then (s.kernel.lookup u).bind (fun _ => p.view) else s.kernel.view v := by
  unfold State.setPayload
  cases h : s.kernel.lookup u with
  | none =>
    by_cases hv : v = u
    · subst hv; simp [Kernel.view, h]
    · simp [hv]
  | some o => simp [Kernel.view_put]

theorem State.view_updThread (s : State) (u v : Nat) (f : Thread → Thread) :
    (s.updThread u f).kernel.view v =
      if v = u then (s.kernel.thread? u).map (fun t => ((f t).state, (f t).priority)) else s.kernel.view v := by
  unfold State.updThread
  cases h : s.kernel.thread? u with
  | none =>
    by_cases hv : v = u
    · subst hv; simpa using Kernel.view_none_of_thread h
    · simp [hv]
  | some t =>
    obtain ⟨n, hn⟩ := Kernel.lookup_of_thread _ _ _ h
    simp [State.view_setPayload, hn, Payload.view]

/-! ## Operations that keep the invariant -/

/-- The invariant is kept, and no slot without a thread gets one. -/
structure SchedKept (s t : State) : Prop where
  wf : SchedWf s.kernel → SchedWf t.kernel
  absent : ∀ u, s.kernel.view u = none → t.kernel.view u = none

/-- No thread changes its state or its priority, and neither the ready queue nor the current thread changes. -/
structure SameSched (s t : State) : Prop where
  view : ∀ u, t.kernel.view u = s.kernel.view u
  ready : t.kernel.ready = s.kernel.ready
  current : t.kernel.current = s.kernel.current

namespace SameSched

theorem kept {s t : State} (h : SameSched s t) : SchedKept s t where
  wf w := by
    rw [schedWf_iff] at w ⊢
    refine ⟨fun u p => ?_, fun p => ?_, fun u p hv => ?_⟩
    · rw [h.view, h.ready]; exact w.1 u p
    · rw [h.ready]; exact w.2.1 p
    · rw [h.current]; exact w.2.2 u p (h.view u ▸ hv)
  absent u hu := by rw [h.view]; exact hu

theorem refl (s : State) : SameSched s s := ⟨fun _ => rfl, rfl, rfl⟩

theorem trans {s t u : State} (h : SameSched s t) (k : SameSched t u) : SameSched s u :=
  ⟨fun v => (k.view v).trans (h.view v), k.ready.trans h.ready, k.current.trans h.current⟩

theorem of_objects {s t : State} (ho : t.kernel.objects = s.kernel.objects) (hr : t.kernel.ready = s.kernel.ready)
    (hc : t.kernel.current = s.kernel.current) : SameSched s t :=
  ⟨fun u => by unfold Kernel.view Kernel.lookup; rw [ho], hr, hc⟩

theorem updThread (s : State) (u : Nat) (f : Thread → Thread) (hs : ∀ t, (f t).state = t.state)
    (hp : ∀ t, (f t).priority = t.priority) : SameSched s (s.updThread u f) where
  view v := by
    rw [State.view_updThread]
    split
    · rename_i h; subst h
      rw [Kernel.view_thread]
      cases s.kernel.thread? v <;> simp [hs, hp]
    · rfl
  ready := by simp
  current := by simp

/-- A write to a slot that holds no thread, of a payload that is none. -/
theorem setPayload (s : State) (u : Nat) (p : Payload) (hu : s.kernel.view u = none) (hp : p.view = none) :
    SameSched s (s.setPayload u p) where
  view v := by
    rw [State.view_setPayload]
    split
    · rename_i h; subst h
      rw [hu, hp]; cases s.kernel.lookup v <;> rfl
    · rfl
  ready := by simp
  current := by simp

theorem mapPayloads (s : State) (f : Payload → Payload) (hf : ∀ p, (f p).view = p.view) :
    SameSched s (s.withKernel fun k => k.mapPayloads f) :=
  ⟨fun u => Kernel.view_mapPayloads _ f hf u, rfl, rfl⟩

theorem dropRecords (s : State) (p : WaitRecord → Bool) : SameSched s (s.withKernel fun k => k.dropRecords p) :=
  mapPayloads s _ fun _ => Payload.view_withQueue _ _

/-- A slot without a thread becomes empty. -/
theorem remove (s : State) (u : Nat) (hu : s.kernel.view u = none) : SameSched s (s.withKernel fun k => k.remove u) where
  view v := by
    show (s.kernel.remove u).view v = _
    rw [Kernel.view_remove]
    split
    · rename_i h; subst h; exact hu.symm
    · rfl
  ready := rfl
  current := rfl

end SameSched

/-- A slot that a lookup by another type has found holds no thread. -/
theorem Kernel.view_of_callback {k : Kernel} {u : Nat} {c : Callback} (h : k.callback? u = some c) : k.view u = none := by
  unfold Kernel.callback? at h
  split at h
  · rename_i e; simp [Kernel.view, e, Payload.view]
  · cases h

theorem Kernel.view_of_semaphore {k : Kernel} {u : Nat} {x : Semaphore} (h : k.semaphore? u = some x) : k.view u = none := by
  unfold Kernel.semaphore? at h
  split at h
  · rename_i e; simp [Kernel.view, e, Payload.view]
  · cases h

theorem Kernel.view_of_mutex {k : Kernel} {u : Nat} {x : Mutex} (h : k.mutex? u = some x) : k.view u = none := by
  unfold Kernel.mutex? at h
  split at h
  · rename_i e; simp [Kernel.view, e, Payload.view]
  · cases h

theorem Kernel.view_of_eventFlag {k : Kernel} {u : Nat} {x : EventFlag} (h : k.eventFlag? u = some x) : k.view u = none := by
  unfold Kernel.eventFlag? at h
  split at h
  · rename_i e; simp [Kernel.view, e, Payload.view]
  · cases h

theorem Kernel.view_of_memoryBlock {k : Kernel} {u : Nat} {a : Nat} (h : k.memoryBlock? u = some a) : k.view u = none := by
  unfold Kernel.memoryBlock? at h
  split at h
  · rename_i e; simp [Kernel.view, e, Payload.view]
  · cases h

/-! ## One thread out of the invariant -/

/-- The invariant for every thread but `u`, which stands in no level. -/
structure SchedBut (k : Kernel) (u : Nat) : Prop where
  ready : ∀ (v : Nat) (p : Fin 128), v ∈ k.ready[p] ↔ v ≠ u ∧ k.view v = some (.ready, p)
  once : ∀ p : Fin 128, k.ready[p].Nodup
  run : ∀ v p, v ≠ u → k.view v = some (.run, p) → k.current = some v

theorem SchedWf.but {k : Kernel} {u : Nat} (w : SchedWf k) (h : ∀ p, k.view u ≠ some (.ready, p)) : SchedBut k u := by
  rw [schedWf_iff] at w
  refine ⟨fun v p => ?_, w.2.1, fun v p _ hv => w.2.2 v p hv⟩
  rw [w.1]
  exact ⟨fun hv => ⟨fun e => h p (e ▸ hv), hv⟩, And.right⟩

/-- A thread that has left its level. -/
theorem SchedBut.dequeue {k : Kernel} {u : Nat} {t : Thread} (w : SchedWf k) (h : k.thread? u = some t) :
    SchedBut (k.dequeue u t.priority) u := by
  have hv := Kernel.view_of_thread h
  rw [schedWf_iff] at w
  refine ⟨fun v p => ?_, fun p => ?_, fun v p _ hr => w.2.2 v p hr⟩
  · show v ∈ (k.ready.set t.priority _)[p] ↔ v ≠ u ∧ k.view v = _
    by_cases hp : p = t.priority
    · subst hp
      simp only [Fin.getElem_fin, Vector.getElem_set_self, List.mem_filter, bne_iff_ne]
      have := w.1 v t.priority
      simp only [Fin.getElem_fin] at this
      rw [this, and_comm]
    · have hne : (t.priority : Nat) ≠ p := fun e => hp (Fin.ext e.symm)
      simp only [Fin.getElem_fin, Vector.getElem_set_ne _ _ hne]
      have := w.1 v p
      simp only [Fin.getElem_fin] at this
      rw [this]
      refine ⟨fun e => ⟨fun he => ?_, e⟩, And.right⟩
      subst he
      rw [hv] at e
      exact hp (congrArg Prod.snd (Option.some.inj e)).symm
  · show ((k.ready.set t.priority _)[p]).Nodup
    by_cases hp : p = t.priority
    · subst hp
      simpa using (w.2.1 t.priority).filter _
    · have hne : (t.priority : Nat) ≠ p := fun e => hp (Fin.ext e.symm)
      simp only [Fin.getElem_fin, Vector.getElem_set_ne _ _ hne]
      exact w.2.1 p

/-- What `unready` leaves. -/
theorem SchedBut.unready {s : State} {u : Nat} (w : SchedWf s.kernel) : SchedBut (s.unready u).kernel u := by
  unfold State.unready
  split
  · rename_i h
    exact w.but fun p e => by rw [Kernel.view_none_of_thread h] at e; cases e
  · rename_i t h
    split
    · exact SchedBut.dequeue w h
    · rename_i hs
      exact w.but fun p e => by rw [Kernel.view_of_thread h] at e; exact hs (congrArg Prod.fst (Option.some.inj e))

/-- The invariant for all but `u` through a change of `u` alone. -/
theorem SchedBut.of_view {k k' : Kernel} {u : Nat} (w : SchedBut k u) (hv : ∀ v, v ≠ u → k'.view v = k.view v)
    (hr : k'.ready = k.ready) (hc : k'.current = k.current) : SchedBut k' u := by
  refine ⟨fun v p => ?_, fun p => hr ▸ w.once p, fun v p hne h => hc ▸ w.run v p hne (hv v hne ▸ h)⟩
  rw [hr, w.ready]
  constructor
  · rintro ⟨h1, h2⟩; exact ⟨h1, (hv v h1).trans h2⟩
  · rintro ⟨h1, h2⟩; exact ⟨h1, (hv v h1).symm.trans h2⟩

theorem SchedBut.updThread {s : State} {u : Nat} (w : SchedBut s.kernel u) (f : Thread → Thread) :
    SchedBut (s.updThread u f).kernel u :=
  w.of_view (fun v h => by rw [State.view_updThread, if_neg h]) (by simp) (by simp)

/-- Where `u` is no thread that is READY or RUN, the invariant holds of all. -/
theorem SchedBut.close {k : Kernel} {u : Nat} (w : SchedBut k u) (h : ∀ p, k.view u ≠ some (.ready, p))
    (hr : ∀ p, k.view u = some (.run, p) → k.current = some u) : SchedWf k := by
  rw [schedWf_iff]
  refine ⟨fun v p => ?_, w.once, fun v p hv => ?_⟩
  · rw [w.ready]
    exact ⟨And.right, fun e => ⟨fun he => h p (he ▸ e), e⟩⟩
  · by_cases he : v = u
    · subst he; exact hr p hv
    · exact w.run v p he hv

/-- `u` joins a level, as READY at that priority. -/
theorem SchedBut.join {k : Kernel} {u : Nat} {q : Fin 128} (w : SchedBut k u) (h : k.view u = some (.ready, q))
    (l : List Nat) (hl : ∀ v, v ∈ l ↔ v = u ∨ v ∈ k.ready[q]) (hn : l.Nodup) :
    SchedWf { k with ready := k.ready.set q l } := by
  rw [schedWf_iff]
  refine ⟨fun v p => ?_, fun p => ?_, fun v p hv => ?_⟩
  · show v ∈ (k.ready.set q l)[p] ↔ k.view v = _
    by_cases hp : p = q
    · subst hp
      have := w.ready v p
      simp only [Fin.getElem_fin] at this hl
      simp only [Fin.getElem_fin, Vector.getElem_set_self, hl, this]
      constructor
      · rintro (rfl | h1)
        · exact h
        · exact h1.2
      · intro hv
        by_cases he : v = u
        · exact .inl he
        · exact .inr ⟨he, hv⟩
    · have hne : (q : Nat) ≠ p := fun e => hp (Fin.ext e.symm)
      have := w.ready v p
      simp only [Fin.getElem_fin] at this
      simp only [Fin.getElem_fin, Vector.getElem_set_ne _ _ hne, this]
      refine ⟨And.right, fun e => ⟨fun he => ?_, e⟩⟩
      subst he
      rw [h] at e; cases e; exact hp rfl
  · show ((k.ready.set q l)[p]).Nodup
    by_cases hp : p = q
    · subst hp; simpa using hn
    · have hne : (q : Nat) ≠ p := fun e => hp (Fin.ext e.symm)
      simp only [Fin.getElem_fin, Vector.getElem_set_ne _ _ hne]
      exact w.once p
  · have hv' : k.view v = some (.run, p) := hv
    exact w.run v p (fun e => by subst e; rw [h] at hv'; cases hv') hv'

theorem SchedBut.enqueueTail {k : Kernel} {u : Nat} {q : Fin 128} (w : SchedBut k u) (h : k.view u = some (.ready, q)) :
    SchedWf (k.enqueueTail u q) := by
  refine w.join h _ (fun v => by simp [or_comm]) ?_
  have hu : u ∉ k.ready[q] := fun e => ((w.ready u q).mp e).1 rfl
  exact List.nodup_append.mpr ⟨w.once q, by simp, fun a ha b hb e => hu (by simp at hb; subst hb; subst e; exact ha)⟩

theorem SchedBut.enqueueHead {k : Kernel} {u : Nat} {q : Fin 128} (w : SchedBut k u) (h : k.view u = some (.ready, q)) :
    SchedWf (k.enqueueHead u q) := by
  refine w.join h _ (fun v => by simp) ?_
  have hu : u ∉ k.ready[q] := fun e => ((w.ready u q).mp e).1 rfl
  exact List.nodup_cons.mpr ⟨hu, w.once q⟩

/-- `u` becomes READY. -/
theorem SchedBut.makeReady {s : State} {u : Nat} (w : SchedBut s.kernel u) (h : (s.kernel.thread? u).isSome) (b : Bool) :
    SchedWf (s.makeReady u b).kernel := by
  unfold State.makeReady
  cases ht : s.kernel.thread? u with
  | none => rw [ht] at h; cases h
  | some t =>
    have hv : (s.updThread u fun t => { t with state := .ready }).kernel.view u = some (.ready, t.priority) := by
      rw [State.view_updThread, if_pos rfl, ht]; rfl
    cases b
    · exact (w.updThread _).enqueueTail hv
    · exact (w.updThread _).enqueueHead hv

/-- A thread that is not READY changes its state to one that is neither READY nor RUN. -/
theorem SchedBut.park {s : State} {u : Nat} (w : SchedBut s.kernel u) (f : Thread → Thread) (hr : ∀ t, (f t).state ≠ .ready)
    (hn : ∀ t, (f t).state ≠ .run) : SchedWf (s.updThread u f).kernel := by
  have hv : (s.updThread u f).kernel.view u = (s.kernel.thread? u).map fun t => ((f t).state, (f t).priority) := by
    rw [State.view_updThread, if_pos rfl]
  refine (w.updThread f).close (fun p e => ?_) (fun p e => ?_) <;> rw [hv] at e <;>
    cases h : s.kernel.thread? u <;> rw [h] at e <;> simp at e
  · exact absurd e.1 (hr _)
  · exact absurd e.1 (hn _)

/-! ## The operations -/

namespace SchedKept

theorem refl (s : State) : SchedKept s s := ⟨id, fun _ => id⟩

theorem trans {s t u : State} (h : SchedKept s t) (k : SchedKept t u) : SchedKept s u :=
  ⟨k.wf ∘ h.wf, fun v => k.absent v ∘ h.absent v⟩

theorem ite {s t u : State} (c : Prop) [Decidable c] (h : SchedKept s t) (k : SchedKept s u) :
    SchedKept s (if c then t else u) := by split <;> assumption

theorem foldl {α : Type} (f : State → α → State) (hf : ∀ s a, SchedKept s (f s a)) :
    ∀ (l : List α) (s : State), SchedKept s (l.foldl f s)
  | [], s => refl s
  | a :: l, s => (hf s a).trans (foldl f hf l (f s a))

/-- An operation that leaves the object table, the ready queue and the current thread alone. -/
theorem of_objects {s t : State} (ho : t.kernel.objects = s.kernel.objects) (hr : t.kernel.ready = s.kernel.ready)
    (hc : t.kernel.current = s.kernel.current) : SchedKept s t := (SameSched.of_objects ho hr hc).kept

theorem of_kernel {s t : State} (h : t.kernel = s.kernel) : SchedKept s t := of_objects (by rw [h]) (by rw [h]) (by rw [h])

theorem setRun (s : State) (r : RunStatus) : SchedKept s { s with run := r } := of_kernel rfl

theorem resume (s : State) : SchedKept s s.resume := setRun s _

theorem updThread (s : State) (u : Nat) (f : Thread → Thread) (hs : ∀ t, (f t).state = t.state)
    (hp : ∀ t, (f t).priority = t.priority) : SchedKept s (s.updThread u f) := (SameSched.updThread s u f hs hp).kept

/-- A change of a thread's fields gives no slot a thread. -/
theorem absent_updThread (s : State) (u v : Nat) (f : Thread → Thread) (h : s.kernel.view v = none) :
    (s.updThread u f).kernel.view v = none := by
  rw [State.view_updThread]
  split
  · rename_i e; subst e
    rw [Kernel.view_thread] at h
    cases ht : s.kernel.thread? v with
    | none => rfl
    | some t => rw [ht] at h; cases h
  · exact h

theorem absent_makeReady (s : State) (u v : Nat) (b : Bool) (h : s.kernel.view v = none) :
    (s.makeReady u b).kernel.view v = none := by
  unfold State.makeReady
  split
  · exact h
  · cases b <;> exact absent_updThread s u v _ h

theorem absent_unready (s : State) (u v : Nat) (h : s.kernel.view v = none) : (s.unready u).kernel.view v = none := by
  unfold State.unready
  split
  · exact h
  · split <;> exact h

/-- A thread that is not READY becomes READY (R310). -/
theorem makeReady (s : State) (u : Nat) (t : Thread) (b : Bool) (h : s.kernel.thread? u = some t) (hs : t.state ≠ .ready) :
    SchedKept s (s.makeReady u b) where
  wf w := (w.but fun p e => by rw [Kernel.view_of_thread h] at e; exact hs (congrArg Prod.fst (Option.some.inj e))).makeReady
    (by rw [h]; rfl) b
  absent v hv := absent_makeReady s u v b hv

theorem readyForCallback (s : State) (u : Nat) : SchedKept s (s.readyForCallback u) := by
  unfold State.readyForCallback
  split
  · exact refl s
  · rename_i t h
    split
    · rename_i hc; exact makeReady s u t false h (by rw [hc.1]; decide)
    · exact refl s

theorem makePending (s : State) (cb : Nat) : SchedKept s (s.makePending cb) := by
  unfold State.makePending
  split
  · exact refl s
  · split
    · exact refl s
    · exact ite _ ((updThread s _ _ (fun _ => by rfl) fun _ => by rfl).trans (readyForCallback _ _)) (refl s)

theorem collectPending (s : State) (u : Nat) : SchedKept s (s.collectPending u) := foldl State.makePending makePending _ s

/-- A thread leaves its level and takes a state that is neither READY nor RUN (R310). -/
theorem park (s : State) (u : Nat) (f : Thread → Thread) (hr : ∀ t, (f t).state ≠ .ready) (hn : ∀ t, (f t).state ≠ .run) :
    SchedKept s ((s.unready u).updThread u f) where
  wf w := (SchedBut.unready w).park f hr hn
  absent v h := absent_updThread _ u v f (absent_unready s u v h)

theorem waitCurrent (s : State) (reason : WaitReason) (allow : Bool) : SchedKept s (s.waitCurrent reason allow) := by
  unfold State.waitCurrent
  split
  · exact refl s
  · rename_i c _
    refine SchedKept.trans (SchedKept.trans ?_ (collectPending _ c)) (readyForCallback _ c)
    constructor
    · intro w
      refine SchedBut.park ?_ _ (fun _ => nofun) (fun _ => nofun)
      exact (SchedBut.unready w).of_view (fun _ _ => rfl) rfl rfl
    · intro v h
      exact absent_updThread _ c v _ (absent_unready s c v h)

theorem wakeUp (s t : State) (u : Nat) (h : s.wakeUp u = some t) : SchedKept s t := by
  unfold State.wakeUp at h
  split at h
  · cases h
  · rename_i x hx
    have h1 : SchedKept s (s.updThread u fun t => { t with waitAllowsCallbacks := false }) :=
      updThread s u _ (fun _ => by rfl) fun _ => by rfl
    have hx' := State.updThread_thread s u x (fun t => { t with waitAllowsCallbacks := false }) hx
    split at h
    · cases h
    · split at h <;> cases h
      · rename_i hs
        exact h1.trans (makeReady _ u _ false hx' (by show x.state ≠ _; rw [hs]; decide))
      · rename_i hs
        refine h1.trans ⟨fun w => ?_, fun v hv => absent_updThread _ u v _ hv⟩
        refine SchedBut.park (w.but fun p e => ?_) _ (fun _ => nofun) (fun _ => nofun)
        rw [Kernel.view_of_thread hx'] at e
        have := congrArg Prod.fst (Option.some.inj e)
        simp [hs] at this
      · exact h1

theorem endWait (s : State) (u w : Nat) (r : Option Word) : SchedKept s (s.endWait u w r) := by
  unfold State.endWait
  simp only
  have h1 : SchedKept s (s.withKernel fun k => k.endCell w r) := of_objects rfl rfl rfl
  split
  · exact h1
  · split
    · have h2 := h1.trans (updThread _ u (fun t => { t with waitReason := none }) (fun _ => by rfl) fun _ => by rfl)
      cases h : ((s.withKernel fun k => k.endCell w r).updThread u fun t => { t with waitReason := none }).wakeUp u with
      | none => exact h2
      | some t => exact h2.trans (wakeUp _ t u h)
    · split
      · exact h1.trans (updThread _ u _ (fun _ => by rfl) fun _ => by rfl)
      · exact h1

theorem wakeAll (s : State) (reason : WaitReason) (r : Option Word) : SchedKept s (s.wakeAll reason r) :=
  foldl (fun (s : State) (e : Nat × Nat) => s.endWait e.1 e.2 r) (fun s e => endWait s e.1 e.2 r) _ s

theorem switchState (s : State) (u : Nat) : SchedKept s (s.switchState u) := by
  unfold State.switchState
  split
  · exact refl s
  · split
    · exact refl s
    · split
      · split
        · exact updThread s u _ (fun _ => by rfl) fun _ => by rfl
        · rename_i cb rest _ _ _ c hc
          have h1 := SameSched.updThread s u (fun t' =>
            { t' with
              callbacksPending := rest
              callbacksRunning := cb :: t'.callbacksRunning
              callbackStack := (s.cpu, t'.snapshot) :: t'.callbackStack
              waitReason := none
              waitObject := none }) (fun _ => by rfl) fun _ => by rfl
          refine SchedKept.trans h1.kept ?_
          exact (SameSched.setPayload _ _ _ (by rw [h1.view]; exact Kernel.view_of_callback hc) rfl).kept.trans
            (of_kernel rfl)
      · exact refl s

theorem deliver (s : State) (u : Nat) : SchedKept s (s.deliver u) := by
  unfold State.deliver
  split
  · exact refl s
  · split
    · exact refl s
    · split
      · exact refl s
      · rename_i w _ _ _ _
        split
        · have h : SchedKept s ((s.updThread u fun t => { t with waitObject := none }).withKernel fun k => k.dropCell w) :=
            (updThread s u _ (fun _ => by rfl) fun _ => by rfl).trans (of_objects rfl rfl rfl)
          split
          · exact h
          · exact h.trans (of_kernel rfl)
        · exact refl s

/-! ### The context switch and the scheduler (R313, R318) -/

/-- The current thread, with its UID. -/
theorem current_thread {k : Kernel} {c : Nat} {t : Thread} (h : k.currentThread? = some (c, t)) :
    k.current = some c ∧ k.thread? c = some t := by
  unfold Kernel.currentThread? at h
  split at h
  · cases h
  · rename_i d hd
    cases h1 : k.thread? d <;> rw [h1] at h <;> cases h
    exact ⟨hd, h1⟩

theorem saveCurrent (s : State) (b : Bool) : SchedKept s (s.saveCurrent b) := by
  unfold State.saveCurrent
  split
  · exact refl s
  · rename_i c t h
    have ht := (current_thread h).2
    have h1 := updThread s c (fun t => { t with context := s.cpu }) (fun _ => by rfl) fun _ => by rfl
    simp only
    split
    · rename_i hr
      exact h1.trans (makeReady _ c _ b (State.updThread_thread s c t _ ht) (by show t.state ≠ _; rw [hr]; decide))
    · exact h1

/-- After the outgoing half no thread is RUN. -/
theorem saveCurrent_noRun (s : State) (b : Bool) (w : SchedWf s.kernel) (u : Nat) (p : Fin 128) :
    (s.saveCurrent b).kernel.view u ≠ some (.run, p) := by
  intro e
  rw [schedWf_iff] at w
  unfold State.saveCurrent at e
  split at e
  · rename_i h
    have hc := w.2.2 u p e
    rw [Kernel.view_thread] at e
    unfold Kernel.currentThread? at h
    rw [hc] at h
    cases ht : s.kernel.thread? u with
    | none => rw [ht] at e; cases e
    | some t => simp [ht] at h
  · rename_i c t h
    obtain ⟨hc, ht⟩ := current_thread h
    have ht1 := State.updThread_thread s c t (fun t => { t with context := s.cpu }) ht
    have hv := (SameSched.updThread s c (fun t => { t with context := s.cpu }) (fun _ => by rfl) fun _ => by rfl).view u
    simp only at e
    split at e
    · have e2 : (((s.updThread c fun t => { t with context := s.cpu }).makeReady c b).kernel.view u) =
          if u = c then some (.ready, t.priority) else s.kernel.view u := by
        unfold State.makeReady
        rw [ht1]
        cases b <;> simp only <;>
        · show ((((s.updThread c fun t => { t with context := s.cpu }).updThread c fun t => { t with state := .ready }).kernel).view u) = _
          rw [State.view_updThread, ht1, hv]
          rfl
      rw [e2] at e
      split at e
      · cases e
      · rename_i hne
        exact hne (Option.some.inj ((w.2.2 u p e).symm.trans hc))
    · rename_i hs
      rw [hv] at e
      have := w.2.2 u p e
      rw [hc] at this; cases this
      rw [Kernel.view_of_thread ht] at e
      exact hs (congrArg Prod.fst (Option.some.inj e))

/-- The incoming half, where no other thread is RUN. -/
theorem switchIn (s : State) (n : Nat) (restore : Bool) (w : SchedWf s.kernel)
    (hn : ∀ u p, s.kernel.view u = some (.run, p) → u = n) : SchedWf (s.switchIn n restore).kernel := by
  unfold State.switchIn
  split
  · exact w
  · rename_i t ht
    have h1 : SchedWf (((s.withKernel fun k => k.dequeue n t.priority).updThread n fun t => { t with state := .run }).setCurrent
        (some n)).kernel := by
      have hv : ∀ v, ((s.withKernel fun k => k.dequeue n t.priority).updThread n fun t => { t with state := .run }).kernel.view v
          = if v = n then some (.run, t.priority) else s.kernel.view v := by
        intro v
        have ht' : (s.withKernel fun k => k.dequeue n t.priority).kernel.thread? n = some t := ht
        rw [State.view_updThread, ht']; rfl
      have hb := (SchedBut.updThread (s := s.withKernel fun k => k.dequeue n t.priority) (SchedBut.dequeue w ht)
        fun t => { t with state := .run })
      refine SchedBut.close (u := n) ⟨fun v p => hb.ready v p, hb.once, fun v p hne e => ?_⟩ (fun p e => ?_) fun _ _ => rfl
      · have e' : ((s.withKernel fun k => k.dequeue n t.priority).updThread n fun t => { t with state := .run }).kernel.view v
          = some (.run, p) := e
        rw [hv, if_neg hne] at e'
        exact absurd (hn v p e') hne
      · have e' : ((s.withKernel fun k => k.dequeue n t.priority).updThread n fun t => { t with state := .run }).kernel.view n
          = some (.ready, p) := e
        rw [hv, if_pos rfl] at e'
        cases e'
    refine SchedKept.wf (SchedKept.trans ?_ (resume _)) h1
    refine SchedKept.trans (SchedKept.trans ?_ (deliver _ n)) (switchState _ n)
    exact of_kernel (by split <;> rfl)

theorem absent_switchIn (s : State) (n v : Nat) (restore : Bool) (h : s.kernel.view v = none) :
    (s.switchIn n restore).kernel.view v = none := by
  unfold State.switchIn
  split
  · exact h
  · rename_i t _
    have h1 : (((s.withKernel fun k => k.dequeue n t.priority).updThread n fun t => { t with state := .run }).setCurrent
        (some n)).kernel.view v = none := absent_updThread _ n v _ h
    refine SchedKept.absent (SchedKept.trans ?_ (resume _)) v h1
    refine SchedKept.trans (SchedKept.trans ?_ (deliver _ n)) (switchState _ n)
    exact of_kernel (by split <;> rfl)

theorem switchTo (s : State) (n : Nat) (yield : Bool) : SchedKept s (s.switchTo n yield) := by
  unfold State.switchTo
  split
  · rename_i hc
    exact ⟨fun w => switchIn s n false w fun u p e =>
      Option.some.inj ((((schedWf_iff _).mp w).2.2 u p e).symm.trans hc), fun v h => absent_switchIn s n v false h⟩
  · exact ⟨fun w => switchIn _ n true ((saveCurrent s _).wf w) fun u p e => absurd e (saveCurrent_noRun s _ w u p),
      fun v h => absent_switchIn _ n v true ((saveCurrent s _).absent v h)⟩

theorem request (s : State) (b : Bool) : SchedKept s (s.request b) := of_objects rfl rfl rfl

theorem clearRequest (s : State) : SchedKept s s.clearRequest := of_objects rfl rfl rfl

theorem reenterWait (s : State) (c : Nat) : SchedKept s (s.reenterWait c) := by
  unfold State.reenterWait
  exact ((park s c _ (fun _ h => by cases h) fun _ h => by cases h).trans (collectPending _ c)).trans (readyForCallback _ c)

theorem recheckWait (s : State) : SchedKept s s.recheckWait := by
  unfold State.recheckWait
  split
  · exact refl s
  · exact ite _ ((reenterWait s _).trans (request _ _)) (refl s)

theorem pickNext (s : State) (forced : Bool) : SchedKept s (s.pickNext forced) := by
  unfold State.pickNext
  split
  · exact (switchTo s _ _).trans (recheckWait _)
  · have h : SchedKept s ((s.saveCurrent (!forced)).setCurrent none) := by
      constructor
      · intro w
        have w1 := (saveCurrent s (!forced)).wf w
        rw [schedWf_iff] at w1 ⊢
        exact ⟨w1.1, w1.2.1, fun u p e => absurd e (saveCurrent_noRun s _ w u p)⟩
      · exact fun v h => (saveCurrent s (!forced)).absent v h
    refine h.trans ?_
    simp only
    split
    · exact (switchTo _ _ _).trans (recheckWait _)
    · exact setRun _ _

/-- `Reschedule` keeps the invariant (R313). -/
theorem reschedule (s : State) (forced : Bool) : SchedKept s (s.reschedule forced) := by
  unfold State.reschedule
  refine (clearRequest s).trans ?_
  simp only
  split
  · exact pickNext _ forced
  · split
    · exact (ite _ (switchState _ _) (refl _)).trans (resume _)
    · exact pickNext _ forced

theorem endHost (s : State) (ask : Option Bool) : SchedKept s (s.endHost ask) := by
  unfold State.endHost
  split
  · exact setRun s _
  · split
    · exact reschedule s _
    · exact ite _ (reschedule s _) (resume s)

theorem continueRun (s : State) (c : Nat) : SchedKept s (s.continueRun c) := by
  unfold State.continueRun
  refine (collectPending s c).trans (SchedKept.trans ?_ (endHost _ _))
  exact ite _ (switchState _ c) (refl _)

/-- A callback return keeps the invariant (R328). -/
theorem callbackReturn (s : State) : SchedKept s s.callbackReturn := by
  unfold State.callbackReturn
  split
  · exact endHost s _
  · split
    · exact endHost s _
    · rename_i c t _ _ ctx w rest _
      have h : SchedKept s { (s.updThread c fun t =>
          { t with callbackStack := rest, callbacksRunning := t.callbacksRunning.tail }) with cpu := ctx } :=
        SchedKept.trans (updThread s c _ (fun _ => by rfl) fun _ => by rfl) (of_kernel rfl)
      refine h.trans ?_
      split
      · exact continueRun _ _
      · rename_i n _
        simp only
        split
        · exact continueRun _ _
        · split
          · refine SchedKept.trans (SchedKept.trans ?_ (deliver _ _)) (continueRun _ _)
            exact updThread _ c (fun t => { t with waitObject := some n.waitObject }) (fun _ => by rfl) fun _ => by rfl
          · have h1 := updThread { (s.updThread c fun t =>
                { t with callbackStack := rest, callbacksRunning := t.callbacksRunning.tail }) with cpu := ctx } c
              (fun t => { t with waitObject := some n.waitObject }) (fun _ => by rfl) fun _ => by rfl
            have h2 := h1.trans (updThread _ c (fun t => { t with waitReason := n.reason, waitAllowsCallbacks := true })
              (fun _ => by rfl) fun _ => by rfl)
            exact (h2.trans (reenterWait _ _)).trans (reschedule _ _)

end SchedKept

end Sys2Proof.Machine
end

