-- ==== Sys2Proof/Laws/HostSched.lean ====
section
/-! SUPPORT. The scheduler's invariant (R309, R311) through the synchronisation primitives, the GPU, threads, host calls and
events. -/

namespace Sys2Proof.Machine

/-! ## The GPU and guest memory do not touch the kernel (R400, R344) -/

theorem State.storeChecked_kernel {s t : State} {a : Word} {bs : List Byte} (h : s.storeChecked a bs = .ok t) :
    t.kernel = s.kernel := by
  obtain ⟨pa, _, rfl⟩ := (State.storeChecked_ok s t a bs).mp h
  rfl

theorem State.writeOut_kernel {s t : State} {out p : Word} (h : s.writeOut out p = .ok t) : t.kernel = s.kernel := by
  unfold State.writeOut at h
  split at h
  · cases h; rfl
  · exact State.storeChecked_kernel h

theorem State.writeGuest_kernel : ∀ (bs : List Byte) {s t : State} {a : Word}, s.writeGuest a bs = .ok t → t.kernel = s.kernel
  | [], s, t, a, h => by cases h; rfl
  | b :: bs, s, t, a, h => by
    unfold State.writeGuest at h
    split at h
    · cases h
    · exact (State.writeGuest_kernel bs h).trans (State.storeChecked_kernel ‹_›)

@[simp] theorem State.geWriteByte_kernel (s : State) (a : Word) (b : Byte) : (s.geWriteByte a b).kernel = s.kernel := by
  unfold State.geWriteByte; split <;> rfl

@[simp] theorem State.geWrite_kernel : ∀ (bs : List Byte) (s : State) (a : Word), (s.geWrite a bs).kernel = s.kernel
  | [], _, _ => rfl
  | b :: bs, s, a => (State.geWrite_kernel bs _ _).trans (State.geWriteByte_kernel s a b)

@[simp] theorem State.writePixel_kernel (s : State) (px py : Nat) (v : Word) : (s.writePixel px py v).kernel = s.kernel :=
  State.geWrite_kernel _ _ _

@[simp] theorem State.writeDepth_kernel (s : State) (px py : Nat) (z : Int) : (s.writeDepth px py z).kernel = s.kernel :=
  State.geWrite_kernel _ _ _

@[simp] theorem State.shade_kernel (s : State) (d : DrawContext) (f : Fragment) : (s.shade d f).kernel = s.kernel := by
  have h1 : ∀ (c : Rgba) (z : Int), (s.writeFragment f.px f.py z c).kernel = s.kernel := by
    intro c z
    unfold State.writeFragment
    simp only
    split <;> simp
  have h2 : (s.clearColour f).kernel = s.kernel := by unfold State.clearColour; split <;> simp
  have h3 : (s.clearFragment d.through f).kernel = s.kernel := by unfold State.clearFragment; split <;> simp [h2]
  unfold State.shade
  simp only
  (repeat' split) <;> first | rfl | exact h3 | exact h1 _ _

theorem State.foldl_shade_kernel (d : DrawContext) :
    ∀ (fs : List Fragment) (s : State), (fs.foldl (fun s f => s.shade d f) s).kernel = s.kernel
  | [], _ => rfl
  | f :: fs, s => (State.foldl_shade_kernel d fs _).trans (State.shade_kernel s d f)

@[simp] theorem State.drawAll_kernel (d : DrawContext) (v : Nat → GeVertex) (seed : Nat) :
    ∀ (ps : List Primitive) (s : State) (k : Nat), (State.drawAll d v seed s k ps).kernel = s.kernel
  | [], _, _ => rfl
  | _ :: ps, s, _ => (State.drawAll_kernel d v seed ps _ _).trans (State.foldl_shade_kernel d _ s)

@[simp] theorem State.draw_kernel (s : State) (through : Bool) (type count : Nat) (vertex : Nat → GeVertex) :
    (s.draw through type count vertex).kernel = s.kernel := State.drawAll_kernel _ _ _ _ _ _

@[simp] theorem State.prim_kernel (s : State) (p : BitVec 24) : (s.prim p).kernel = s.kernel := by
  unfold State.prim
  simp only
  split
  · rfl
  · exact State.draw_kernel _ _ _ _ _

@[simp] theorem State.command_kernel (s : State) (id : Nat) (l : GeList) (cmd : BitVec 8) (p : BitVec 24) :
    (s.command id l cmd p).kernel = s.kernel := by
  unfold State.command
  simp only
  split
  · exact State.prim_kernel _ _
  · rfl

@[simp] theorem State.geOperation_kernel (s : State) (id : Nat) (o : GeOp) : (s.geOperation id o).kernel = s.kernel := by
  unfold State.geOperation
  split
  · rfl
  · split <;> rfl
  · split
    · rfl
    · exact State.command_kernel _ _ _ _ _
  · exact State.draw_kernel _ _ _ _ _
  · exact State.geWrite_kernel _ _ _

theorem State.geOperations_kernel (id : Nat) :
    ∀ (os : List GeOp) (s : State), (s.geOperations id os).kernel = s.kernel
  | [], _ => rfl
  | o :: os, s => (State.geOperations_kernel id os _).trans (State.geOperation_kernel s id o)

/-- No thread changes its state when the waits of one are forgotten. -/
theorem SameSched.dropWaits (s : State) (v : Nat) : SameSched s (s.dropWaits v) :=
  ⟨fun u => (SameSched.dropRecords s fun r => r.thread == v).view u, rfl, rfl⟩

namespace SchedKept

theorem executeCommand (s : State) (id : Nat) (l : GeList) (w : Word) : SchedKept s (s.executeCommand id l w) := by
  unfold State.executeCommand
  simp only
  split
  · exact of_kernel (State.command_kernel _ _ _ _ _)
  · exact of_kernel (State.geOperations_kernel _ _ _)

/-! ## Wait queues and primitives (R323 to R336) -/

theorem unscheduleTimer (s : State) (t : Option Nat) : SchedKept s (s.unscheduleTimer t) := by
  cases t
  · exact refl s
  · exact of_objects rfl rfl rfl

theorem endRecords (s : State) (rs : List WaitRecord) (r : Option Word) : SchedKept s (s.endRecords rs r) :=
  foldl (fun (s : State) (e : WaitRecord) => (s.unscheduleTimer e.timer).endWait e.thread e.waitObject r)
    (fun s e => (unscheduleTimer s e.timer).trans (endWait _ _ _ _)) rs s

/-- A primitive's slot is written. -/
theorem setPayload (s : State) (u : Nat) (p : Payload) (hu : s.kernel.view u = none) (hp : p.view = none) :
    SchedKept s (s.setPayload u p) := (SameSched.setPayload s u p hu hp).kept

theorem remove (s : State) (u : Nat) (hu : s.kernel.view u = none) : SchedKept s (s.withKernel fun k => k.remove u) :=
  (SameSched.remove s u hu).kept

theorem cancelAll (s : State) (u : Nat) (p : Payload) (st : Word) (hu : s.kernel.view u = none) (hp : p.view = none) :
    SchedKept s (s.cancelAll u p st) :=
  (setPayload s u _ hu ((Payload.view_withQueue p []).trans hp)).trans (endRecords _ _ _)

theorem deletePrimitive (s : State) (u : Nat) (p : Payload) (hu : s.kernel.view u = none) (hp : p.view = none) :
    SchedKept s (s.deletePrimitive u p) := by
  have h := cancelAll s u p s.par.status.delete hu hp
  exact h.trans (remove _ u (h.absent u hu))

theorem scanSemaphore (s : State) (u : Nat) : SchedKept s (s.scanSemaphore u) := by
  unfold State.scanSemaphore
  split
  · exact refl s
  · exact (setPayload s u _ (Kernel.view_of_semaphore ‹_›) rfl).trans (endRecords _ _ _)

theorem signalSemaphore (s t : State) (u : Nat) (x : Semaphore) (n : Nat) (hu : s.kernel.view u = none)
    (h : s.signalSemaphore u x n = some t) : SchedKept s t := by
  unfold State.signalSemaphore at h
  split at h
  · cases h
  · cases h; exact (setPayload s u _ hu rfl).trans (scanSemaphore _ _)

theorem grantMutex (s : State) (u : Nat) : SchedKept s (s.grantMutex u) := by
  unfold State.grantMutex
  split
  · exact refl s
  · rename_i x hx
    split
    · split
      · exact setPayload s u _ (Kernel.view_of_mutex hx) rfl
      · exact (setPayload s u _ (Kernel.view_of_mutex hx) rfl).trans (endRecords _ _ _)
    · exact refl s

theorem unlockMutex (s t : State) (u : Nat) (x : Mutex) (n : Nat) (hu : s.kernel.view u = none)
    (h : s.unlockMutex u x n = some t) : SchedKept s t := by
  unfold State.unlockMutex at h
  split at h
  · cases h
  · cases h; exact (setPayload s u _ hu rfl).trans (grantMutex _ _)

theorem blockOn (s t : State) (u : Nat) (reason : WaitReason) (m : TimeoutMin) (cond : WaitCond) (tp : Word) (allow : Bool)
    (hu : s.kernel.view u = none) (h : s.blockOn u reason m cond tp allow = .ok t) : SchedKept s t := by
  have hp : ∀ o, s.kernel.lookup u = some o → o.payload.view = none := by
    intro o ho
    simpa [Kernel.view, ho] using hu
  unfold State.blockOn at h
  split at h
  · rename_i o _ ho
    simp only at h
    split at h
    · cases h
      exact (setPayload s u _ hu ((Payload.view_enqueue _ _ _).trans (hp _ ho))).trans (waitCurrent _ _ _)
    · split at h
      · cases h
      · cases h
        refine SchedKept.trans (SchedKept.trans ?_ (setPayload _ u _ ?_ ?_)) (waitCurrent _ _ _)
        · exact of_objects rfl rfl rfl
        · exact hu
        · exact (Payload.view_enqueue _ _ _).trans (hp _ ho)
  · cases h; exact refl s

theorem waitSemaphore (s t : State) (u : Nat) (x : Semaphore) (n : Nat) (tp : Word) (allow : Bool)
    (hu : s.kernel.view u = none) (h : s.waitSemaphore u x n tp allow = .ok t) : SchedKept s t := by
  unfold State.waitSemaphore at h
  split at h
  · cases h; exact setPayload s u _ hu rfl
  · exact blockOn s t _ _ _ _ _ _ hu h

theorem lockMutex (s t : State) (u : Nat) (x : Mutex) (n : Nat) (tp : Word) (allow : Bool) (hu : s.kernel.view u = none)
    (h : s.lockMutex u x n tp allow = .ok t) : SchedKept s t := by
  unfold State.lockMutex at h
  split at h
  · cases h; exact setPayload s u _ hu rfl
  · split at h
    · cases h; exact setPayload s u _ hu rfl
    · exact blockOn s t _ _ _ _ _ _ hu h

theorem writeOut (s t : State) (out p : Word) (h : s.writeOut out p = .ok t) : SchedKept s t :=
  of_kernel (State.writeOut_kernel h)

theorem grantFlags : ∀ (rs : List (WaitRecord × Word)) (s t : State), s.grantFlags rs = .ok t → SchedKept s t
  | [], s, t, h => by cases h; exact refl s
  | (r, p) :: rs, s, t, h => by
    unfold State.grantFlags at h
    split at h
    · split at h
      · cases h
      · rename_i s1 h1
        exact ((writeOut s s1 _ _ h1).trans (endRecords s1 _ _)).trans (grantFlags rs _ t h)
    · exact (endRecords s _ _).trans (grantFlags rs _ t h)

theorem scanEventFlag (s t : State) (u : Nat) (h : s.scanEventFlag u = .ok t) : SchedKept s t := by
  unfold State.scanEventFlag at h
  split at h
  · cases h; exact refl s
  · exact (setPayload s u _ (Kernel.view_of_eventFlag ‹_›) rfl).trans (grantFlags _ _ t h)

theorem waitEventFlag (s t : State) (u : Nat) (x : EventFlag) (bits : Word) (mode : FlagMode) (clear : Bool)
    (out tp : Word) (allow : Bool) (hu : s.kernel.view u = none)
    (h : s.waitEventFlag u x bits mode clear out tp allow = .ok t) : SchedKept s t := by
  unfold State.waitEventFlag at h
  split at h
  · exact (setPayload s u _ hu rfl).trans (writeOut _ t _ _ h)
  · exact blockOn s t _ _ _ _ _ _ hu h

theorem setEventFlag (s t : State) (u : Nat) (x : EventFlag) (b : Word) (hu : s.kernel.view u = none)
    (h : s.setEventFlag u x b = .ok t) : SchedKept s t := by
  unfold State.setEventFlag at h
  exact (setPayload s u _ hu rfl).trans (scanEventFlag _ t u h)

/-! ## Display lists (R355, R356) -/

theorem completeList (s : State) (id : Nat) (l : GeList) : SchedKept s (s.completeList id l) := by
  unfold State.completeList
  refine SchedKept.trans ?_ (request _ _)
  refine SchedKept.trans ?_ (foldl _ (fun s t => foldl _ (fun s e => ?_) _ _) _ _)
  · exact of_kernel rfl
  · split
    · exact endWait s _ _ _
    · exact refl s

theorem endLists (s : State) (rest : Option HostScript) (ask : Option Bool) : SchedKept s (s.endLists rest ask) := by
  unfold State.endLists
  split
  · exact endHost s _
  · exact of_kernel rfl

/-- A step of `RunLists` keeps the invariant (R356). -/
theorem geStep (s : State) (rest : Option HostScript) : SchedKept s (s.geStep rest) := by
  unfold State.geStep
  split
  · exact endLists s _ _
  · split
    · exact of_kernel rfl
    · split
      · rename_i id _ _ _ l _ _
        exact SchedKept.trans (t := s.withGpu fun g => g.setList id { l with status := .stalled }) (of_kernel rfl)
          (endLists _ _ _)
      · split
        · exact completeList s _ _
        · simp only
          split
          · exact executeCommand s _ _ _
          · split
            · exact (executeCommand s _ _ _).trans (completeList _ _ _)
            · exact executeCommand s _ _ _

theorem waitList (s : State) (id : Nat) (l : GeList) : SchedKept s (s.waitList id l) := by
  unfold State.waitList
  split
  · exact refl s
  · rename_i c _
    exact SchedKept.trans (t := s.withGpu fun g => g.setList id { l with waiters := l.waiters ++ [c] }) (of_kernel rfl)
      (waitCurrent _ _ _)

/-! ## Threads (R312, R316 to R319) and callbacks (R326) -/

theorem suspendThread (s u : State) (v : Nat) (t : Thread) (h : s.suspendThread v t = some u) (ht : s.kernel.thread? v = some t) :
    SchedKept s u := by
  have hp : ∀ f : Thread → Thread, (∀ t, (f t).state ≠ .ready) → (∀ t, (f t).state ≠ .run) → t.state ≠ .ready →
      SchedKept s (s.updThread v f) := by
    intro f h1 h2 h3
    refine ⟨fun w => SchedBut.park (w.but fun p e => ?_) f h1 h2, fun _ => absent_updThread s v _ f⟩
    rw [Kernel.view_of_thread ht] at e
    exact h3 (congrArg Prod.fst (Option.some.inj e))
  unfold State.suspendThread at h
  split at h <;> cases h
  · rename_i e; exact hp _ (fun _ h => by cases h) (fun _ h => by cases h) (by rw [e]; decide)
  · exact park s v _ (fun _ h => by cases h) (fun _ h => by cases h)
  · rename_i e; exact hp _ (fun _ h => by cases h) (fun _ h => by cases h) (by rw [e]; decide)

theorem resumeThread (s u : State) (v : Nat) (t : Thread) (h : s.resumeThread v t = some u) (ht : s.kernel.thread? v = some t) :
    SchedKept s u := by
  unfold State.resumeThread at h
  split at h <;> cases h
  · rename_i e; exact makeReady s v t false ht (by rw [e]; decide)
  · rename_i e
    refine SchedKept.trans ⟨fun w => SchedBut.park (w.but fun p e' => ?_) _ (fun _ h => by cases h) (fun _ h => by cases h),
      fun _ => absent_updThread s v _ _⟩ (readyForCallback _ _)
    rw [Kernel.view_of_thread ht] at e'
    have := congrArg Prod.fst (Option.some.inj e')
    simp [e] at this

theorem changePriority (s : State) (v : Nat) (t : Thread) (p : Fin 128) (ht : s.kernel.thread? v = some t) :
    SchedKept s (s.changePriority v t p) := by
  unfold State.changePriority
  simp only
  refine SchedKept.trans ?_ (SameSched.mapPayloads _ _ fun q => by
    split
    · exact Payload.view_resort _ q
    · rfl).kept
  have hu : (s.unready v).kernel.view v = s.kernel.view v := by
    unfold State.unready
    split
    · rfl
    · split <;> rfl
  have ht' : (s.unready v).kernel.thread? v = some t := by
    unfold State.unready
    rw [ht]; simp only
    split
    · exact ht
    · exact ht
  have hv : ((s.unready v).updThread v fun t => { t with priority := p }).kernel.view v = some (t.state, p) := by
    rw [State.view_updThread, if_pos rfl, ht']; rfl
  constructor
  · intro w
    have hb := (SchedBut.unready (u := v) w).updThread fun t => { t with priority := p }
    split
    · rename_i hs
      rw [hs] at hv
      exact hb.enqueueTail hv
    · rename_i hs
      refine hb.close (fun q e => ?_) (fun q e => ?_)
      · rw [hv] at e; exact hs (congrArg Prod.fst (Option.some.inj e))
      · rw [hv] at e
        have hc := ((schedWf_iff _).mp w).2.2 v t.priority (by
          have h1 : t.state = .run := congrArg Prod.fst (Option.some.inj e)
          rw [Kernel.view_of_thread ht, h1])
        rw [State.updThread_current]
        unfold State.unready
        rw [ht]
        simp only
        split <;> exact hc
  · intro x hx
    have h1 := absent_updThread (s.unready v) v x (fun t => { t with priority := p }) (absent_unready s v x hx)
    split <;> exact h1

theorem notifyCallback (s : State) (cb : Nat) (c : Callback) (arg : Word) (h : s.kernel.callback? cb = some c) :
    SchedKept s (s.notifyCallback cb c arg) :=
  (setPayload s cb _ (Kernel.view_of_callback h) rfl).trans (makePending _ _)

theorem deleteCallback (s : State) (cb : Nat) (c : Callback) (h : s.kernel.callback? cb = some c) :
    SchedKept s (s.deleteCallback cb c) :=
  SchedKept.trans (remove s cb (Kernel.view_of_callback h)) (updThread _ _ _ (fun _ => by rfl) fun _ => by rfl)

theorem dropWaits (s : State) (v : Nat) : SchedKept s (s.dropWaits v) := (SameSched.dropWaits s v).kept

theorem startThread (s u : State) (v : Nat) (t : Thread) (len : Nat) (args : Word) (h : s.startThread v t len args = .ok u)
    (ht : s.kernel.thread? v = some t) (hs : t.state ≠ .ready) : SchedKept s u := by
  unfold State.startThread at h
  simp only at h
  split at h
  · cases h
  · split at h
    · cases h
    · rename_i s1 h1
      cases h
      have hk := State.writeGuest_kernel _ h1
      have hf : ∀ f : Thread → Thread, (∀ t, (f t).state = t.state) → (∀ t, (f t).priority = t.priority) →
          SchedKept s ((s1.updThread v f).makeReady v false) := fun f h2 h3 =>
        ((of_kernel hk).trans (updThread s1 v f h2 h3)).trans (makeReady _ v (f t) false
          (State.updThread_thread s1 v t f (by rw [hk]; exact ht)) (by rw [h2]; exact hs))
      refine SchedKept.trans ?_ (of_kernel (State.drew_kernel _ _))
      exact hf _ (fun _ => by rfl) fun _ => by rfl

end SchedKept

/-! ## New objects (R306) -/

/-- The slot of a new object held nothing. -/
theorem scanSlots_free (f : Nat → Bool) (slots : Nat) : ∀ (n i u : Nat), scanSlots f slots n i = some u → f u = false
  | 0, _, _, h => by cases h
  | n + 1, i, u, h => by
    unfold scanSlots at h
    split at h
    · exact scanSlots_free f slots n _ u h
    · rename_i hf; cases h; simpa using hf

/-- A new object that is no thread that is READY or RUN keeps the invariant. -/
theorem Kernel.create_schedWf {k k' : Kernel} {slots : Nat} {o : KernelObject} {u : Nat}
    (h : k.create slots o = some (u, k')) (ho : ∀ p, o.payload.view ≠ some (.ready, p) ∧ o.payload.view ≠ some (.run, p)) :
    (SchedWf k → SchedWf k') ∧ k'.lookup u = some o := by
  unfold Kernel.create at h
  split at h
  · cases h
  · rename_i uid hu
    cases h
    refine ⟨fun w => ?_, Kernel.lookup_put_same _ _ _⟩
    have hf := scanSlots_free _ _ _ _ _ hu
    have hv : k.view u = none := by
      unfold Kernel.view
      cases hl : k.lookup u with
      | none => rfl
      | some x => simp [hl] at hf
    have hb : SchedBut k u := w.but fun p e => by rw [hv] at e; cases e
    refine SchedBut.close (u := u) (hb.of_view (fun v hne => (Kernel.view_put k u v o).trans (if_neg hne)) rfl rfl) ?_ ?_
    · intro p e
      exact (ho p).1 (((Kernel.view_put k u u o).trans (if_pos rfl)).symm.trans e)
    · intro p e
      exact absurd (((Kernel.view_put k u u o).trans (if_pos rfl)).symm.trans e) (ho p).2

/-- A new thread keeps the invariant, and is DORMANT (R316). -/
theorem State.createThread_schedWf {s t : State} {name : String} {entry : Word} {p : Fin 128} {stack m : Nat} {gp : Word}
    {a r : Bool} {u : Nat} (h : s.createThread name entry p stack m gp a r = some (u, t)) :
    (SchedWf s.kernel → SchedWf t.kernel) ∧ ∃ th, t.kernel.thread? u = some th ∧ th.state = .dormant := by
  unfold State.createThread at h
  split at h
  · cases h
  · rename_i base al _
    simp only at h
    split at h
    · cases h
    · rename_i uid k hk
      cases h
      obtain ⟨h1, h2⟩ := Kernel.create_schedWf hk fun p => ⟨(fun h => by cases h), (fun h => by cases h)⟩
      refine ⟨fun w => h1 ?_, ?_⟩
      · exact (SchedKept.of_objects (s := s) (t := { s with kernel := { s.kernel with userAllocator := al } }) rfl rfl rfl).wf w
      · exact ⟨_, by unfold Kernel.thread?; rw [h2], rfl⟩

/-! ## Threads that end (R317) -/

theorem State.exitThread_schedWf (s : State) (w : SchedWf s.kernel) : SchedWf s.exitThread.kernel := by
  unfold State.exitThread
  split
  · exact w
  · rename_i c hc
    have hb := SchedBut.unready (u := c) w
    have hs := SameSched.dropWaits (s.unready c) c
    have hb2 : SchedBut ((s.unready c).dropWaits c).kernel c :=
      hb.of_view (fun v _ => hs.view v) hs.ready hs.current
    have hw := hb2.park (fun t => { t.idle with state := .dormant, context := s.cpu }) (fun _ h => by cases h) (fun _ h => by cases h)
    rw [schedWf_iff] at hw ⊢
    refine ⟨hw.1, hw.2.1, fun u p e => ?_⟩
    have hcur := hw.2.2 u p e
    rw [State.updThread_current, hs.current] at hcur
    have hc' : (s.unready c).kernel.current = some c := by
      unfold State.unready
      split
      · exact hc
      · split <;> exact hc
    rw [hc'] at hcur
    cases hcur
    have e' : (((s.unready c).dropWaits c).updThread c fun t => { t.idle with state := .dormant, context := s.cpu }).kernel.view c
      = some (.run, p) := e
    rw [State.view_updThread, if_pos rfl] at e'
    cases ht : ((s.unready c).dropWaits c).kernel.thread? c <;> rw [ht] at e' <;> simp at e'

/-- The callbacks of a thread go, and it goes last (R317). -/
theorem State.deleteThread_schedWf (s : State) (u : Nat) (t : Thread) (w : SchedWf s.kernel) :
    SchedWf (s.deleteThread u t).kernel := by
  have hcb : ∀ (l : List Nat) (s : State), (∀ cb ∈ l, s.kernel.view cb = none) →
      SameSched s (l.foldl (fun s cb => s.withKernel fun k => k.remove cb) s) := by
    intro l
    induction l with
    | nil => exact fun s _ => SameSched.refl s
    | cons c l ih =>
      intro s h
      have h1 := SameSched.remove s c (h c (by simp))
      exact h1.trans (ih _ fun cb hm => (h1.view cb).trans (h cb (by simp [hm])))
  unfold State.deleteThread
  simp only
  generalize hs2 : ((s.unready u).dropWaits u).withKernel (fun k =>
    { k with userAllocator := (k.userAllocator.free t.stackBase).getD k.userAllocator }) = s2
  have h2 : SameSched (s.unready u) s2 := by
    subst hs2
    exact (SameSched.dropWaits _ _).trans (SameSched.of_objects rfl rfl rfl)
  have h3 := h2.trans (hcb (s2.kernel.callbacksOf u) s2 fun cb hm => by
    unfold Kernel.callbacksOf at hm
    rw [List.mem_filter] at hm
    have h4 := hm.2
    split at h4
    · cases h4
    · exact Kernel.view_of_callback ‹_›)
  generalize (s2.kernel.callbacksOf u).foldl (fun s cb => s.withKernel fun k => k.remove cb) s2 = s3 at h3
  have hb : SchedBut s3.kernel u := (SchedBut.unready w).of_view (fun v _ => h3.view v) h3.ready h3.current
  have hb4 : SchedBut (s3.kernel.remove u) u :=
    hb.of_view (fun v hv => (Kernel.view_remove _ _ _).trans (if_neg hv)) rfl rfl
  have hv : (s3.kernel.remove u).view u = none := (Kernel.view_remove _ _ _).trans (if_pos rfl)
  have hc : (s.unready u).kernel.current = s.kernel.current := by
    unfold State.unready
    split
    · rfl
    · split <;> rfl
  have hw : SchedWf (s3.kernel.remove u) :=
    hb4.close (fun p e => by rw [hv] at e; cases e) (fun p e => by rw [hv] at e; cases e)
  split
  · rename_i hcur
    rw [schedWf_iff] at hw ⊢
    refine ⟨hw.1, hw.2.1, fun x p e => ?_⟩
    have h5 : s3.kernel.current = some x := hw.2.2 x p e
    rw [h3.current, hc, hcur] at h5
    cases h5
    have e' : (s3.kernel.remove u).view u = some (.run, p) := e
    rw [hv] at e'; cases e'
  · exact hw

/-! ## Host calls (R286) -/

/-- A creation call. -/
theorem hostCreate_schedWf (s : State) (name : String) (p : Payload) (hp : p.view = none) (w : SchedWf s.kernel) :
    SchedWf (hostCreate s name p).state.kernel := by
  unfold hostCreate
  split
  · exact w
  · exact (Kernel.create_schedWf ‹_› fun q => by simp [hp]).1 w

/-- A memory block's object. -/
theorem hostNewBlock_schedWf (s : State) (addr : Nat) (a : Allocator) (w : SchedWf s.kernel) :
    SchedWf (hostNewBlock s addr a).state.kernel := by
  unfold hostNewBlock
  split
  · exact w
  · exact (Kernel.create_schedWf ‹_› fun q => ⟨(fun h => by cases h), (fun h => by cases h)⟩).1
      ((SchedKept.of_objects (s := s) (t := { s with kernel := { s.kernel with userAllocator := a } }) rfl rfl rfl).wf w)

namespace SchedKept

theorem hostCreateThread (s : State) (w : SchedWf s.kernel) : SchedWf (Sys2Proof.Machine.hostCreateThread s).state.kernel := by
  unfold Sys2Proof.Machine.hostCreateThread
  simp only
  (repeat' split) <;> first | exact w | exact (State.createThread_schedWf ‹_›).1 w

theorem hostDeleteThread (s : State) (w : SchedWf s.kernel) : SchedWf (Sys2Proof.Machine.hostDeleteThread s).state.kernel := by
  unfold Sys2Proof.Machine.hostDeleteThread
  split
  · exact w
  · exact State.deleteThread_schedWf s _ _ w

theorem hostChangePriority (s : State) : SchedKept s (Sys2Proof.Machine.hostChangePriority s).state := by
  unfold Sys2Proof.Machine.hostChangePriority
  (repeat' split) <;> first | exact refl s | exact changePriority s _ _ _ ‹_›

/-- The head of a level goes to its tail (R314). -/
theorem hostRotate (s : State) : SchedKept s (Sys2Proof.Machine.hostRotate s).state := by
  unfold Sys2Proof.Machine.hostRotate
  split
  · rename_i hp
    refine ⟨fun w => ?_, fun _ h => h⟩
    generalize (⟨s.argNat 0, hp⟩ : Fin 128) = q
    have hl : ∀ l : List Nat, (match l with
        | [] => []
        | u :: rest => rest ++ [u]).Perm l := by
      intro l
      cases l with
      | nil => exact .refl _
      | cons u rest => exact List.perm_append_comm
    rw [schedWf_iff] at w ⊢
    refine ⟨fun u p => ?_, fun p => ?_, w.2.2⟩
    · refine Iff.trans ?_ (w.1 u p)
      show u ∈ (s.kernel.ready.set q _)[p] ↔ u ∈ s.kernel.ready[p]
      by_cases e : p = q
      · subst e
        simp only [Fin.getElem_fin, Vector.getElem_set_self]
        exact (hl _).mem_iff
      · have hne : (q : Nat) ≠ p := fun h => e (Fin.ext h.symm)
        simp only [Fin.getElem_fin, Vector.getElem_set_ne _ _ hne]
    · show ((s.kernel.ready.set q _)[p]).Nodup
      by_cases e : p = q
      · subst e
        simp only [Fin.getElem_fin, Vector.getElem_set_self]
        exact (hl _).nodup_iff.mpr (w.2.1 p)
      · have hne : (q : Nat) ≠ p := fun h => e (Fin.ext h.symm)
        simp only [Fin.getElem_fin, Vector.getElem_set_ne _ _ hne]
        exact w.2.1 p
  · exact refl s

theorem hostSuspend (s : State) : SchedKept s (Sys2Proof.Machine.hostSuspend s).state := by
  unfold Sys2Proof.Machine.hostSuspend
  (repeat' split) <;> first | exact refl s | exact suspendThread s _ _ _ ‹_› ‹_›

theorem hostResume (s : State) : SchedKept s (Sys2Proof.Machine.hostResume s).state := by
  unfold Sys2Proof.Machine.hostResume
  (repeat' split) <;> first | exact refl s | exact resumeThread s _ _ _ ‹_› ‹_›

theorem hostCallbackMode (s : State) : SchedKept s (Sys2Proof.Machine.hostCallbackMode s).state := by
  unfold Sys2Proof.Machine.hostCallbackMode
  split
  · exact refl s
  · exact (updThread s _ (fun t => { t with allowsCallbacks := s.argBool 0 }) (fun _ => rfl) fun _ => rfl).trans
      (collectPending _ _)

theorem hostWakeup (s : State) : SchedKept s (Sys2Proof.Machine.hostWakeup s).state := by
  unfold Sys2Proof.Machine.hostWakeup
  (repeat' split) <;> first | exact refl s | exact endWait s _ _ _

theorem hostDelay (s : State) : SchedKept s (Sys2Proof.Machine.hostDelay s).state := by
  unfold Sys2Proof.Machine.hostDelay
  split
  · exact refl s
  · exact SchedKept.trans (t := s.schedule _ _) (of_objects rfl rfl rfl) (waitCurrent _ _ _)

theorem hostCancel (s : State) (p : Option Payload) (h : ∀ q ∈ p, s.kernel.view (s.argNat 0) = none ∧ q.view = none) :
    SchedKept s (Sys2Proof.Machine.hostCancel s p).state := by
  unfold Sys2Proof.Machine.hostCancel
  split
  · exact refl s
  · exact cancelAll s _ _ _ (h _ rfl).1 (h _ rfl).2

theorem hostDelete (s : State) (p : Option Payload) (h : ∀ q ∈ p, s.kernel.view (s.argNat 0) = none ∧ q.view = none) :
    SchedKept s (Sys2Proof.Machine.hostDelete s p).state := by
  unfold Sys2Proof.Machine.hostDelete
  split
  · exact refl s
  · exact deletePrimitive s _ _ (h _ rfl).1 (h _ rfl).2

theorem argSemaphore (s : State) : ∀ q ∈ s.argSemaphore, s.kernel.view (s.argNat 0) = none ∧ q.view = none := by
  intro q h
  unfold State.argSemaphore at h
  obtain ⟨x, hx, rfl⟩ := Option.map_eq_some_iff.mp h
  exact ⟨Kernel.view_of_semaphore hx, rfl⟩

theorem argMutex (s : State) : ∀ q ∈ s.argMutex, s.kernel.view (s.argNat 0) = none ∧ q.view = none := by
  intro q h
  unfold State.argMutex at h
  obtain ⟨x, hx, rfl⟩ := Option.map_eq_some_iff.mp h
  exact ⟨Kernel.view_of_mutex hx, rfl⟩

theorem argEventFlag (s : State) : ∀ q ∈ s.argEventFlag, s.kernel.view (s.argNat 0) = none ∧ q.view = none := by
  intro q h
  unfold State.argEventFlag at h
  obtain ⟨x, hx, rfl⟩ := Option.map_eq_some_iff.mp h
  exact ⟨Kernel.view_of_eventFlag hx, rfl⟩

theorem hostCreateSemaphore (s : State) (w : SchedWf s.kernel) :
    SchedWf (Sys2Proof.Machine.hostCreateSemaphore s).state.kernel := by
  unfold Sys2Proof.Machine.hostCreateSemaphore
  split
  · exact w
  · exact hostCreate_schedWf s _ _ rfl w

theorem hostSignalSemaphore (s : State) : SchedKept s (Sys2Proof.Machine.hostSignalSemaphore s).state := by
  unfold Sys2Proof.Machine.hostSignalSemaphore
  (repeat' split) <;> first | exact refl s | exact signalSemaphore s _ _ _ _ (Kernel.view_of_semaphore ‹_›) ‹_›

theorem hostUnlockMutex (s : State) : SchedKept s (Sys2Proof.Machine.hostUnlockMutex s).state := by
  unfold Sys2Proof.Machine.hostUnlockMutex
  (repeat' split) <;> first | exact refl s | exact unlockMutex s _ _ _ _ (Kernel.view_of_mutex ‹_›) ‹_›

theorem hostClearEventFlag (s : State) : SchedKept s (Sys2Proof.Machine.hostClearEventFlag s).state := by
  unfold Sys2Proof.Machine.hostClearEventFlag
  split
  · exact refl s
  · exact setPayload s _ _ (Kernel.view_of_eventFlag ‹_›) rfl

theorem hostCreateCallback (s : State) (w : SchedWf s.kernel) :
    SchedWf (Sys2Proof.Machine.hostCreateCallback s).state.kernel := by
  unfold Sys2Proof.Machine.hostCreateCallback
  split
  · exact w
  · exact hostCreate_schedWf s _ _ rfl w

theorem hostDeleteCallback (s : State) : SchedKept s (Sys2Proof.Machine.hostDeleteCallback s).state := by
  unfold Sys2Proof.Machine.hostDeleteCallback
  split
  · exact refl s
  · exact deleteCallback s _ _ ‹_›

theorem hostNotifyCallback (s : State) : SchedKept s (Sys2Proof.Machine.hostNotifyCallback s).state := by
  unfold Sys2Proof.Machine.hostNotifyCallback
  split
  · exact refl s
  · exact notifyCallback s _ _ _ ‹_›

theorem hostAlloc (s : State) (w : SchedWf s.kernel) : SchedWf (Sys2Proof.Machine.hostAlloc s).state.kernel := by
  unfold Sys2Proof.Machine.hostAlloc
  (repeat' split) <;> first | exact w | exact hostNewBlock_schedWf s _ _ w

theorem hostAllocAt (s : State) (w : SchedWf s.kernel) : SchedWf (Sys2Proof.Machine.hostAllocAt s).state.kernel := by
  unfold Sys2Proof.Machine.hostAllocAt
  (repeat' split) <;> first | exact w | exact hostNewBlock_schedWf s _ _ w

theorem hostFree (s : State) : SchedKept s (Sys2Proof.Machine.hostFree s).state := by
  unfold Sys2Proof.Machine.hostFree
  split
  · exact refl s
  · split
    · exact refl s
    · exact (remove s _ (Kernel.view_of_memoryBlock ‹_›)).trans (of_objects rfl rfl rfl)

theorem hostListEnqueue (s : State) : SchedKept s (Sys2Proof.Machine.hostListEnqueue s).state := by
  unfold Sys2Proof.Machine.hostListEnqueue
  split
  · exact refl s
  · rename_i h
    unfold State.listEnqueue at h
    split at h <;> cases h
    exact of_kernel rfl

theorem hostListUpdateStall (s : State) : SchedKept s (Sys2Proof.Machine.hostListUpdateStall s).state := by
  unfold Sys2Proof.Machine.hostListUpdateStall
  split
  · exact refl s
  · rename_i h
    unfold State.listUpdateStall at h
    (repeat' split at h) <;> cases h <;> exact of_kernel rfl

theorem hostListSync (s : State) : SchedKept s (Sys2Proof.Machine.hostListSync s).state := by
  unfold Sys2Proof.Machine.hostListSync
  (repeat' split) <;> first | exact refl s | exact waitList s _ _

theorem hostDrawSync (s : State) : SchedKept s (Sys2Proof.Machine.hostDrawSync s).state := by
  unfold Sys2Proof.Machine.hostDrawSync
  (repeat' split) <;> first | exact refl s | exact waitList s _ _

theorem hostStartThread (s : State) (r : HostResult) (h : Sys2Proof.Machine.hostStartThread s = .ok r) :
    SchedKept s r.state := by
  unfold Sys2Proof.Machine.hostStartThread at h
  simp only at h
  split at h
  · cases h; exact refl s
  · rename_i t ht
    split at h
    · cases h; exact refl s
    · rename_i hs
      (repeat' split at h) <;> cases h <;> first
        | exact refl s
        | exact startThread s _ _ t _ _ ‹_› ht (by intro e; rw [e] at hs; exact hs (fun h => by cases h))

theorem hostWaitSemaphore (s : State) (r : HostResult) (h : Sys2Proof.Machine.hostWaitSemaphore s = .ok r) :
    SchedKept s r.state := by
  unfold Sys2Proof.Machine.hostWaitSemaphore at h
  (repeat' split at h) <;> cases h <;>
    first | exact refl s | exact waitSemaphore s _ _ _ _ _ _ (Kernel.view_of_semaphore ‹_›) ‹_›

theorem hostLockMutex (s : State) (r : HostResult) (h : Sys2Proof.Machine.hostLockMutex s = .ok r) : SchedKept s r.state := by
  unfold Sys2Proof.Machine.hostLockMutex at h
  (repeat' split at h) <;> cases h <;>
    first | exact refl s | exact lockMutex s _ _ _ _ _ _ (Kernel.view_of_mutex ‹_›) ‹_›

theorem hostWaitEventFlag (s : State) (r : HostResult) (h : Sys2Proof.Machine.hostWaitEventFlag s = .ok r) :
    SchedKept s r.state := by
  unfold Sys2Proof.Machine.hostWaitEventFlag at h
  (repeat' split at h) <;> cases h <;>
    first | exact refl s | exact waitEventFlag s _ _ _ _ _ _ _ _ _ (Kernel.view_of_eventFlag ‹_›) ‹_›

theorem hostSetEventFlag (s : State) (r : HostResult) (h : Sys2Proof.Machine.hostSetEventFlag s = .ok r) :
    SchedKept s r.state := by
  unfold Sys2Proof.Machine.hostSetEventFlag at h
  (repeat' split at h) <;> cases h <;>
    first | exact refl s | exact setEventFlag s _ _ _ _ (Kernel.view_of_eventFlag ‹_›) ‹_›

/-- An operation of the kernel or the GPU keeps the invariant. -/
theorem runCall (op : KernelCall) (s : State) (r : HostResult) (h : Sys2Proof.Machine.runCall op s = .ok r)
    (w : SchedWf s.kernel) : SchedWf r.state.kernel := by
  cases op <;> simp only [Sys2Proof.Machine.runCall, Except.ok.injEq] at h
  case exitProcess => subst h; exact (SchedKept.of_objects (s := s) (t := (hostExitProcess s).state) rfl rfl rfl).wf w
  case getCycles => subst h; exact w
  case createThread => subst h; exact hostCreateThread s w
  case startThread => exact (hostStartThread s r h).wf w
  case exitThread => subst h; exact State.exitThread_schedWf s w
  case deleteThread => subst h; exact hostDeleteThread s w
  case changePriority => subst h; exact (hostChangePriority s).wf w
  case yieldThread => subst h; exact w
  case rotateReady => subst h; exact (hostRotate s).wf w
  case suspendThread => subst h; exact (hostSuspend s).wf w
  case resumeThread => subst h; exact (hostResume s).wf w
  case setCallbackMode => subst h; exact (hostCallbackMode s).wf w
  case sleepThread => subst h; exact (waitCurrent s _ _).wf w
  case wakeupThread => subst h; exact (hostWakeup s).wf w
  case delayThread => subst h; exact (hostDelay s).wf w
  case waitSignal => subst h; exact (waitCurrent s _ _).wf w
  case scheduleSignal => subst h; exact (SchedKept.of_objects (s := s) (t := (hostScheduleSignal s).state) rfl rfl rfl).wf w
  case unscheduleSignal => subst h; exact (SchedKept.of_objects (s := s) (t := (hostUnscheduleSignal s).state) rfl rfl rfl).wf w
  case createSemaphore => subst h; exact hostCreateSemaphore s w
  case waitSemaphore => exact (hostWaitSemaphore s r h).wf w
  case signalSemaphore => subst h; exact (hostSignalSemaphore s).wf w
  case cancelSemaphore => subst h; exact (hostCancel s _ (argSemaphore s)).wf w
  case deleteSemaphore => subst h; exact (hostDelete s _ (argSemaphore s)).wf w
  case createMutex => subst h; exact hostCreate_schedWf s _ _ rfl w
  case lockMutex => exact (hostLockMutex s r h).wf w
  case unlockMutex => subst h; exact (hostUnlockMutex s).wf w
  case cancelMutex => subst h; exact (hostCancel s _ (argMutex s)).wf w
  case deleteMutex => subst h; exact (hostDelete s _ (argMutex s)).wf w
  case createEventFlag => subst h; exact hostCreate_schedWf s _ _ rfl w
  case waitEventFlag => exact (hostWaitEventFlag s r h).wf w
  case setEventFlag => exact (hostSetEventFlag s r h).wf w
  case clearEventFlag => subst h; exact (hostClearEventFlag s).wf w
  case cancelEventFlag => subst h; exact (hostCancel s _ (argEventFlag s)).wf w
  case deleteEventFlag => subst h; exact (hostDelete s _ (argEventFlag s)).wf w
  case createCallback => subst h; exact hostCreateCallback s w
  case deleteCallback => subst h; exact (hostDeleteCallback s).wf w
  case notifyCallback => subst h; exact (hostNotifyCallback s).wf w
  case allocMemory => subst h; exact hostAlloc s w
  case allocMemoryAt => subst h; exact hostAllocAt s w
  case freeMemory => subst h; exact (hostFree s).wf w
  case geListEnqueue => subst h; exact (hostListEnqueue s).wf w
  case geListUpdateStall => subst h; exact (hostListUpdateStall s).wf w
  case geListSync => subst h; exact (hostListSync s).wf w
  case geDrawSync => subst h; exact (hostDrawSync s).wf w

theorem writeGuest (s t : State) (a : Word) (bs : List Byte) (h : s.writeGuest a bs = .ok t) : SchedKept s t :=
  of_kernel (State.writeGuest_kernel bs h)

/-- One operation of a script keeps the invariant (R286, R292). -/
theorem hostOp (r q : HostResult) (o : HostOp) (h : r.run o = .ok q) (w : SchedWf r.state.kernel) :
    SchedWf q.state.kernel := by
  have hrm : ∀ u, r.state.kernel.view u = none → SchedWf (r.state.withKernel fun k => k.remove u).kernel :=
    fun u hu => (remove _ u hu).wf w
  unfold HostResult.run at h
  split at h
  · split at h
    · cases h
    · cases h; exact (writeGuest _ _ _ _ ‹_›).wf w
  · split at h
    · cases h
    · rename_i q1 h1
      cases h
      have w1 : SchedWf q1.state.kernel := runCall _ _ _ h1 w
      exact w1
  · cases h; exact (wakeAll _ _ _).wf w
  · cases h; exact hostCreate_schedWf _ _ _ rfl w
  · cases h; exact hostCreate_schedWf _ _ _ rfl w
  · split at h <;> cases h
    · exact hrm _ (by rename_i e; simp [Kernel.view, e, Payload.view])
    · exact hrm _ (by rename_i e; simp [Kernel.view, e, Payload.view])
    · exact hrm _ (by rename_i e; simp [Kernel.view, e, Payload.view])
    · exact w
  · cases h; exact w
  · cases h; exact w

/-- A script keeps the invariant (R286, R292). -/
theorem runAll : ∀ (os : List HostOp) (r : HostResult) (q : HostResult × List HostOp), r.runAll os = .ok q →
    SchedWf r.state.kernel → SchedWf q.1.state.kernel
  | [], r, q, h, w => by cases h; exact w
  | o :: os, r, q, h, w => by
    unfold HostResult.runAll at h
    split at h
    · cases h
    · split at h
      · cases h; exact hostOp r _ o ‹_› w
      · exact runAll os _ q h (hostOp r _ o ‹_› w)

theorem setResult (s : State) (r : Reg) (v : Option Word) : (s.setResult r v).kernel = s.kernel := by
  cases v <;> rfl

/-- The end of a host call keeps the invariant (R286, R287). -/
theorem finish (r : HostResult) (optOut : Bool) (w : SchedWf r.state.kernel) : SchedWf (r.finish optOut).kernel := by
  have hr : (r.results optOut).kernel = r.state.kernel := by
    unfold HostResult.results
    split
    · rw [setResult, setResult]
    · rw [State.poison_kernel, setResult, setResult]
  unfold HostResult.finish
  split
  · exact hr ▸ w
  · exact (endHost _ _).wf (hr ▸ w)

theorem endScript (r : HostResult) (origin : ScriptOrigin) (w : SchedWf r.state.kernel) :
    SchedWf (r.endScript origin).kernel := by
  unfold HostResult.endScript
  split
  · exact finish r _ w
  · split <;> exact w

/-- A script keeps the invariant where it stops or ends (R286, R292, R355). -/
theorem runScript (s t : State) (f : HostScript) (h : s.runScript f = .ok t) (w : SchedWf s.kernel) : SchedWf t.kernel := by
  unfold State.runScript at h
  split at h
  · cases h
  · have k := runAll _ _ _ ‹_› w
    split at h <;> cases h
    · exact k
    · exact endScript _ _ k

theorem scriptStep (s : State) (f : HostScript) (w : SchedWf s.kernel) : SchedWf (s.scriptStep f).kernel := by
  unfold State.scriptStep
  split
  · exact w
  · exact runScript s _ f ‹_› w

/-- A host behaviour keeps the invariant (R286). -/
theorem runBehaviour (b : HleBehaviour) (optOut : Bool) (s t : State)
    (h : Sys2Proof.Machine.runBehaviour b optOut s = .ok t) (w : SchedWf s.kernel) : SchedWf t.kernel := by
  unfold Sys2Proof.Machine.runBehaviour at h
  split at h
  · cases h; exact finish _ _ w
  · split at h <;> cases h
    exact finish _ _ (runCall _ s _ ‹_› w)
  · exact runScript s t _ h w

/-- A host call keeps the invariant (R286). -/
theorem hostCall (s : State) (code : BitVec 20) (w : SchedWf s.kernel) : SchedWf (s.hostCall code).kernel := by
  unfold State.hostCall
  split
  · exact w
  · exact runBehaviour _ _ s _ ‹_› w

/-! ## Events (R298, R323) -/

theorem scanPrimitive (s t : State) (r : WaitReason) (h : s.scanPrimitive r = .ok t) : SchedKept s t := by
  unfold State.scanPrimitive at h
  split at h
  · cases h; exact scanSemaphore s _
  · cases h; exact grantMutex s _
  · exact scanEventFlag s t _ h
  · cases h; exact refl s

theorem fireTimeout (s t : State) (thread w : Nat) (cell : Word) (r : WaitReason)
    (h : s.fireTimeout thread w cell r = .ok t) : SchedKept s t := by
  unfold State.fireTimeout at h
  split at h
  · cases h
  · rename_i s1 h1
    refine (of_kernel (State.storeChecked_kernel h1)).trans ?_
    exact ((endWait s1 _ _ _).trans (SameSched.dropRecords _ _).kept).trans (scanPrimitive _ _ _ h)

theorem fire (s t : State) (a : EventAction) (h : s.fire a = .ok t) (w : SchedWf s.kernel) : SchedWf t.kernel := by
  unfold State.fire at h
  split at h
  · exact (fireTimeout s t _ _ _ _ h).wf w
  · cases h; exact (endWait s _ _ _).wf w
  · split at h
    · cases h; exact (wakeAll s _ _).wf w
    · cases h; exact w
    · exact runScript s t _ h w

/-- The firing of an event keeps the invariant (R298). -/
theorem fireEvent (s : State) (e : Event) (w : SchedWf s.kernel) : SchedWf (s.fireEvent e).kernel := by
  have w1 : SchedWf (s.unschedule e.handle).kernel :=
    (SchedKept.of_objects (s := s) (t := s.unschedule e.handle) rfl rfl rfl).wf w
  unfold State.fireEvent
  split
  · exact w
  · exact (request _ _).wf (fire _ _ _ ‹_› w1)

end SchedKept

end Sys2Proof.Machine
end

