-- ==== Sys2Proof/Tests/Slice0.lean ====
section
/-! SUPPORT. Tests: ill-formed terms, a word of every encoding, one step of each instruction on the examples of its rule, and a
state for the hypotheses of every statement that has any. Expected values are those of the rule that a test names. -/

namespace Sys2Proof.Tests

open Sys2Proof Sys2Proof.Machine

/-! ## Well-formed terms and encodings -/

/-- One ill-formed term for each check of `WellFormed`: EXT's size from both sides, and a wrong primary opcode for each refused
group. -/
theorem test_wellFormed_refuses :
    WellFormed (.ext 1#5 2#5 0#5 0) = false ∧
    WellFormed (.ext 1#5 2#5 0#5 33) = false ∧
    WellFormed (.cop0 0x44000000#32) = false ∧
    WellFormed (.cop2 0x4C000000#32) = false ∧
    WellFormed (.special2 0x74000000#32) = false ∧
    WellFormed (.vfpu0 0x64000000#32) = false ∧
    WellFormed (.vfpu1 0x60000000#32) = false ∧
    WellFormed (.vfpu3 0x68000000#32) = false ∧
    WellFormed (.lvS 0xCC000000#32) = false ∧
    WellFormed (.vfpu4 0xD4000000#32) = false ∧
    WellFormed (.lvlrQ 0xD0000000#32) = false ∧
    WellFormed (.lvQ 0xDC000000#32) = false ∧
    WellFormed (.vfpu5 0xD8000000#32) = false ∧
    WellFormed (.svS 0xEC000000#32) = false ∧
    WellFormed (.vfpu6 0xF4000000#32) = false ∧
    WellFormed (.svlrQ 0xF0000000#32) = false ∧
    WellFormed (.svQ 0xFC000000#32) = false ∧
    WellFormed (.vfpu7 0xF8000000#32) = false ∧
    WellFormed (.ll 0xC4000000#32) = false ∧
    WellFormed (.sc 0xE4000000#32) = false := by decide
/-- The encodings of spec/41_alu_register.md, with distinct values in the fields. -/
theorem test_decode_alu_register_1 :
    decode 0b00000000000010101110010011000000#32 = .ok (.sll 28#5 10#5 19#5) ∧
    decode 0b00000000000010101110010011000010#32 = .ok (.srl 28#5 10#5 19#5) ∧
    decode 0b00000000001010101110010011000010#32 = .ok (.rotr 28#5 10#5 19#5) ∧
    decode 0b00000000000010101110010011000011#32 = .ok (.sra 28#5 10#5 19#5) ∧
    decode 0b00000010001010101110000000000100#32 = .ok (.sllv 28#5 10#5 17#5) ∧
    decode 0b00000010001010101110000000000110#32 = .ok (.srlv 28#5 10#5 17#5) ∧
    decode 0b00000010001010101110000001000110#32 = .ok (.rotrv 28#5 10#5 17#5) ∧
    decode 0b00000010001010101110000000000111#32 = .ok (.srav 28#5 10#5 17#5) ∧
    decode 0b00000010001010101110000000001010#32 = .ok (.movz 28#5 17#5 10#5) ∧
    decode 0b00000010001010101110000000001011#32 = .ok (.movn 28#5 17#5 10#5) ∧
    decode 0b00000010001000001110000000010110#32 = .ok (.clz 28#5 17#5) ∧
    decode 0b00000010001000001110000000010111#32 = .ok (.clo 28#5 17#5) ∧
    decode 0b00000010001010101110000000100000#32 = .ok (.add 28#5 17#5 10#5) ∧
    decode 0b00000010001010101110000000100001#32 = .ok (.addu 28#5 17#5 10#5) ∧
    decode 0b00000010001010101110000000100010#32 = .ok (.sub 28#5 17#5 10#5) ∧
    decode 0b00000010001010101110000000100011#32 = .ok (.subu 28#5 17#5 10#5) ∧
    decode 0b00000010001010101110000000100100#32 = .ok (.and 28#5 17#5 10#5) ∧
    decode 0b00000010001010101110000000100101#32 = .ok (.or 28#5 17#5 10#5) ∧
    decode 0b00000010001010101110000000100110#32 = .ok (.xor 28#5 17#5 10#5) ∧
    decode 0b00000010001010101110000000100111#32 = .ok (.nor 28#5 17#5 10#5) := by decide

/-- The encodings of spec/41_alu_register.md, with distinct values in the fields. -/
theorem test_decode_alu_register_2 :
    decode 0b00000010001010101110000000101010#32 = .ok (.slt 28#5 17#5 10#5) ∧
    decode 0b00000010001010101110000000101011#32 = .ok (.sltu 28#5 17#5 10#5) ∧
    decode 0b00000010001010101110000000101100#32 = .ok (.max 28#5 17#5 10#5) ∧
    decode 0b00000010001010101110000000101101#32 = .ok (.min 28#5 17#5 10#5) ∧
    decode 0b01111110001010101100100110000000#32 = .ok (.ext 10#5 17#5 6#5 26) ∧
    decode 0b01111110001010101100100110000100#32 = .ok (.ins 10#5 17#5 6#5 25#5) ∧
    decode 0b01111100000010101110000010100000#32 = .ok (.wsbh 28#5 10#5) ∧
    decode 0b01111100000010101110000011100000#32 = .ok (.wsbw 28#5 10#5) ∧
    decode 0b01111100000010101110010000100000#32 = .ok (.seb 28#5 10#5) ∧
    decode 0b01111100000010101110010100100000#32 = .ok (.bitrev 28#5 10#5) ∧
    decode 0b01111100000010101110011000100000#32 = .ok (.seh 28#5 10#5) := by decide

/-- The encodings of spec/42_alu_immediate.md, with distinct values in the fields. -/
theorem test_decode_alu_immediate :
    decode 0b00100010001010101000010000100001#32 = .ok (.addi 10#5 17#5 0x8421#16) ∧
    decode 0b00100110001010101000010000100001#32 = .ok (.addiu 10#5 17#5 0x8421#16) ∧
    decode 0b00101010001010101000010000100001#32 = .ok (.slti 10#5 17#5 0x8421#16) ∧
    decode 0b00101110001010101000010000100001#32 = .ok (.sltiu 10#5 17#5 0x8421#16) ∧
    decode 0b00110010001010101000010000100001#32 = .ok (.andi 10#5 17#5 0x8421#16) ∧
    decode 0b00110110001010101000010000100001#32 = .ok (.ori 10#5 17#5 0x8421#16) ∧
    decode 0b00111010001010101000010000100001#32 = .ok (.xori 10#5 17#5 0x8421#16) ∧
    decode 0b00111100000010101000010000100001#32 = .ok (.lui 10#5 0x8421#16) := by decide

/-- The encodings of spec/43_muldiv.md, with distinct values in the fields. -/
theorem test_decode_muldiv :
    decode 0b00000000000000001110000000010000#32 = .ok (.mfhi 28#5) ∧
    decode 0b00000010001000000000000000010001#32 = .ok (.mthi 17#5) ∧
    decode 0b00000000000000001110000000010010#32 = .ok (.mflo 28#5) ∧
    decode 0b00000010001000000000000000010011#32 = .ok (.mtlo 17#5) ∧
    decode 0b00000010001010100000000000011000#32 = .ok (.mult 17#5 10#5) ∧
    decode 0b00000010001010100000000000011001#32 = .ok (.multu 17#5 10#5) ∧
    decode 0b00000010001010100000000000011100#32 = .ok (.madd 17#5 10#5) ∧
    decode 0b00000010001010100000000000011101#32 = .ok (.maddu 17#5 10#5) ∧
    decode 0b00000010001010100000000000101110#32 = .ok (.msub 17#5 10#5) ∧
    decode 0b00000010001010100000000000101111#32 = .ok (.msubu 17#5 10#5) ∧
    decode 0b00000010001010100000000000011010#32 = .ok (.div 17#5 10#5) ∧
    decode 0b00000010001010100000000000011011#32 = .ok (.divu 17#5 10#5) := by decide

/-- The encodings of spec/44_loadstore.md, with distinct values in the fields. -/
theorem test_decode_loadstore :
    decode 0b10000010101010101100001110100101#32 = .ok (.lb 10#5 21#5 0xC3A5#16) ∧
    decode 0b10000110101010101100001110100101#32 = .ok (.lh 10#5 21#5 0xC3A5#16) ∧
    decode 0b10001010101010101100001110100101#32 = .ok (.lwl 10#5 21#5 0xC3A5#16) ∧
    decode 0b10001110101010101100001110100101#32 = .ok (.lw 10#5 21#5 0xC3A5#16) ∧
    decode 0b10010010101010101100001110100101#32 = .ok (.lbu 10#5 21#5 0xC3A5#16) ∧
    decode 0b10010110101010101100001110100101#32 = .ok (.lhu 10#5 21#5 0xC3A5#16) ∧
    decode 0b10011010101010101100001110100101#32 = .ok (.lwr 10#5 21#5 0xC3A5#16) ∧
    decode 0b10100010101010101100001110100101#32 = .ok (.sb 10#5 21#5 0xC3A5#16) ∧
    decode 0b10100110101010101100001110100101#32 = .ok (.sh 10#5 21#5 0xC3A5#16) ∧
    decode 0b10101010101010101100001110100101#32 = .ok (.swl 10#5 21#5 0xC3A5#16) ∧
    decode 0b10101110101010101100001110100101#32 = .ok (.sw 10#5 21#5 0xC3A5#16) ∧
    decode 0b10111010101010101100001110100101#32 = .ok (.swr 10#5 21#5 0xC3A5#16) ∧
    decode 0b11000110101010101100001110100101#32 = .ok (.lwc1 10#5 21#5 0xC3A5#16) ∧
    decode 0b11100110101010101100001110100101#32 = .ok (.swc1 10#5 21#5 0xC3A5#16) ∧
    decode 0b10111110101101001100001110100101#32 = .ok (.cache 20#5 21#5 0xC3A5#16) := by decide

/-- The encodings of spec/45_branch_jump.md, with distinct values in the fields. -/
theorem test_decode_branch_jump :
    decode 0b00010010001010101100001110100101#32 = .ok (.beq 17#5 10#5 0xC3A5#16) ∧
    decode 0b00010110001010101100001110100101#32 = .ok (.bne 17#5 10#5 0xC3A5#16) ∧
    decode 0b00011010001000001100001110100101#32 = .ok (.blez 17#5 0xC3A5#16) ∧
    decode 0b00011110001000001100001110100101#32 = .ok (.bgtz 17#5 0xC3A5#16) ∧
    decode 0b01010010001010101100001110100101#32 = .ok (.beql 17#5 10#5 0xC3A5#16) ∧
    decode 0b01010110001010101100001110100101#32 = .ok (.bnel 17#5 10#5 0xC3A5#16) ∧
    decode 0b01011010001000001100001110100101#32 = .ok (.blezl 17#5 0xC3A5#16) ∧
    decode 0b01011110001000001100001110100101#32 = .ok (.bgtzl 17#5 0xC3A5#16) ∧
    decode 0b00000110001000001100001110100101#32 = .ok (.bltz 17#5 0xC3A5#16) ∧
    decode 0b00000110001000011100001110100101#32 = .ok (.bgez 17#5 0xC3A5#16) ∧
    decode 0b00000110001000101100001110100101#32 = .ok (.bltzl 17#5 0xC3A5#16) ∧
    decode 0b00000110001000111100001110100101#32 = .ok (.bgezl 17#5 0xC3A5#16) ∧
    decode 0b00000110001100001100001110100101#32 = .ok (.bltzal 17#5 0xC3A5#16) ∧
    decode 0b00000110001100011100001110100101#32 = .ok (.bgezal 17#5 0xC3A5#16) ∧
    decode 0b00000110001100101100001110100101#32 = .ok (.bltzall 17#5 0xC3A5#16) ∧
    decode 0b00000110001100111100001110100101#32 = .ok (.bgezall 17#5 0xC3A5#16) ∧
    decode 0b00001010101001011111001100011011#32 = .ok (.j 0x2A5F31B#26) ∧
    decode 0b00001110101001011111001100011011#32 = .ok (.jal 0x2A5F31B#26) ∧
    decode 0b00000010001000000000000000001000#32 = .ok (.jr 17#5) ∧
    decode 0b00000010001000001110000000001001#32 = .ok (.jalr 28#5 17#5) := by decide

/-- The encodings of spec/46_fpu.md, with distinct values in the fields. -/
theorem test_decode_fpu_1 :
    decode 0b01000100000011011011000000000000#32 = .ok (.mfc1 13#5 22#5) ∧
    decode 0b01000100100011011011000000000000#32 = .ok (.mtc1 13#5 22#5) ∧
    decode 0b01000100010011011011000000000000#32 = .ok (.cfc1 13#5 22#5) ∧
    decode 0b01000100110011011011000000000000#32 = .ok (.ctc1 13#5 22#5) ∧
    decode 0b01000101000000001100001110100101#32 = .ok (.bc1f 0xC3A5#16) ∧
    decode 0b01000101000000011100001110100101#32 = .ok (.bc1t 0xC3A5#16) ∧
    decode 0b01000101000000101100001110100101#32 = .ok (.bc1fl 0xC3A5#16) ∧
    decode 0b01000101000000111100001110100101#32 = .ok (.bc1tl 0xC3A5#16) ∧
    decode 0b01000110000011011011001011000000#32 = .ok (.addS 11#5 22#5 13#5) ∧
    decode 0b01000110000011011011001011000001#32 = .ok (.subS 11#5 22#5 13#5) ∧
    decode 0b01000110000011011011001011000010#32 = .ok (.mulS 11#5 22#5 13#5) ∧
    decode 0b01000110000011011011001011000011#32 = .ok (.divS 11#5 22#5 13#5) ∧
    decode 0b01000110000000001011001011000100#32 = .ok (.sqrtS 11#5 22#5) ∧
    decode 0b01000110000000001011001011000101#32 = .ok (.absS 11#5 22#5) ∧
    decode 0b01000110000000001011001011000110#32 = .ok (.movS 11#5 22#5) ∧
    decode 0b01000110000000001011001011000111#32 = .ok (.negS 11#5 22#5) ∧
    decode 0b01000110100000001011001011100000#32 = .ok (.cvtSW 11#5 22#5) ∧
    decode 0b01000110000000001011001011001100#32 = .ok (.roundWS 11#5 22#5) ∧
    decode 0b01000110000000001011001011100100#32 = .ok (.cvtWS 11#5 22#5) ∧
    decode 0b01000110000000001011001011001101#32 = .ok (.truncWS 11#5 22#5) := by decide

/-- The encodings of spec/46_fpu.md, with distinct values in the fields. -/
theorem test_decode_fpu_2 :
    decode 0b01000110000000001011001011001110#32 = .ok (.ceilWS 11#5 22#5) ∧
    decode 0b01000110000000001011001011001111#32 = .ok (.floorWS 11#5 22#5) ∧
    decode 0b01000110000011011011000000110000#32 = .ok (.cF 22#5 13#5) ∧
    decode 0b01000110000011011011000000110001#32 = .ok (.cUn 22#5 13#5) ∧
    decode 0b01000110000011011011000000110010#32 = .ok (.cEq 22#5 13#5) ∧
    decode 0b01000110000011011011000000110011#32 = .ok (.cUeq 22#5 13#5) ∧
    decode 0b01000110000011011011000000110100#32 = .ok (.cOlt 22#5 13#5) ∧
    decode 0b01000110000011011011000000110101#32 = .ok (.cUlt 22#5 13#5) ∧
    decode 0b01000110000011011011000000110110#32 = .ok (.cOle 22#5 13#5) ∧
    decode 0b01000110000011011011000000110111#32 = .ok (.cUle 22#5 13#5) ∧
    decode 0b01000110000011011011000000111000#32 = .ok (.cSf 22#5 13#5) ∧
    decode 0b01000110000011011011000000111001#32 = .ok (.cNgle 22#5 13#5) ∧
    decode 0b01000110000011011011000000111010#32 = .ok (.cSeq 22#5 13#5) ∧
    decode 0b01000110000011011011000000111011#32 = .ok (.cNgl 22#5 13#5) ∧
    decode 0b01000110000011011011000000111100#32 = .ok (.cLt 22#5 13#5) ∧
    decode 0b01000110000011011011000000111101#32 = .ok (.cNge 22#5 13#5) ∧
    decode 0b01000110000011011011000000111110#32 = .ok (.cLe 22#5 13#5) ∧
    decode 0b01000110000011011011000000111111#32 = .ok (.cNgt 22#5 13#5) := by decide

/-- The encodings of spec/47_system.md, with distinct values in the fields. -/
theorem test_decode_system_1 :
    decode 0b00000010011010010111110011001100#32 = .ok (.syscall 0x9A5F3#20) ∧
    decode 0b00000010011010010111110011001101#32 = .ok (.brk 0x9A5F3#20) ∧
    decode 0b00000000000000000000001001001111#32 = .ok (.sync 9#5) ∧
    decode 0b01000010110011100011110000101101#32 = .ok (.cop0 0x42CE3C2D#32) ∧
    decode 0b01001010110011100011110000101101#32 = .ok (.cop2 0x4ACE3C2D#32) ∧
    decode 0b01110010110011100011110000101101#32 = .ok (.special2 0x72CE3C2D#32) ∧
    decode 0b01100010110011100011110000101101#32 = .ok (.vfpu0 0x62CE3C2D#32) ∧
    decode 0b01100110110011100011110000101101#32 = .ok (.vfpu1 0x66CE3C2D#32) ∧
    decode 0b01101110110011100011110000101101#32 = .ok (.vfpu3 0x6ECE3C2D#32) ∧
    decode 0b11001010110011100011110000101101#32 = .ok (.lvS 0xCACE3C2D#32) ∧
    decode 0b11010010110011100011110000101101#32 = .ok (.vfpu4 0xD2CE3C2D#32) ∧
    decode 0b11010110110011100011110000101101#32 = .ok (.lvlrQ 0xD6CE3C2D#32) ∧
    decode 0b11011010110011100011110000101101#32 = .ok (.lvQ 0xDACE3C2D#32) ∧
    decode 0b11011110110011100011110000101101#32 = .ok (.vfpu5 0xDECE3C2D#32) ∧
    decode 0b11101010110011100011110000101101#32 = .ok (.svS 0xEACE3C2D#32) ∧
    decode 0b11110010110011100011110000101101#32 = .ok (.vfpu6 0xF2CE3C2D#32) ∧
    decode 0b11110110110011100011110000101101#32 = .ok (.svlrQ 0xF6CE3C2D#32) ∧
    decode 0b11111010110011100011110000101101#32 = .ok (.svQ 0xFACE3C2D#32) ∧
    decode 0b11111110110011100011110000101101#32 = .ok (.vfpu7 0xFECE3C2D#32) ∧
    decode 0b11000010110011100011110000101101#32 = .ok (.ll 0xC2CE3C2D#32) := by decide

/-- The encodings of spec/47_system.md, with distinct values in the fields. -/
theorem test_decode_system_2 :
    decode 0b11100010110011100011110000101101#32 = .ok (.sc 0xE2CE3C2D#32) := by decide

/-! ## One step of each instruction -/

/-- The CPU running at 0x08804000 with `x[1]`, `x[2]` and `x[3]` as given. -/
def cpuAt (a b c : Word) : State :=
  (({ State.reset with run := .running, cpu := Context.reset.jumpTo 0x08804000#32 }.setX 1#5 a).setX 2#5 b).setX 3#5 c

/-- The same with HI and LO. -/
def hiLoAt (h l a b : Word) : State := (cpuAt a b 0#32).setHiLo h l

/-- The same with `f[1]`, `f[2]` and FCR31. -/
def fpuAt (a b fcr : Word) : State := (((cpuAt 0#32 0#32 0#32).setF 1#5 a).setF 2#5 b).setFcr31 fcr

/-- `x[1]` and `x[2]` as given, and the bytes `bs` at 0x08800000. -/
def memAt (a b : Word) (bs : List Byte) : State := (cpuAt a b 0#32).storeBytes 0x08800000 bs

def stateOf (o : Out) : Option State :=
  match o with
  | .next t => some t
  | _ => none

def regOf (o : Out) (r : Reg) : Option Word := (stateOf o).map fun t => t.x r

def fprOf (o : Out) (r : FReg) : Option Word := (stateOf o).map fun t => t.f r

def hiLoOf (o : Out) : Option (Word × Word) := (stateOf o).map fun t => (t.cpu.hi, t.cpu.lo)

def pcOf (o : Out) : Option (Word × Word × Bool) := (stateOf o).map fun t => (t.cpu.pc, t.cpu.nextPc, t.cpu.ds)

def runOf (o : Out) : Option RunStatus := (stateOf o).map fun t => t.run

def bytesOf (o : Out) (pa n : Nat) : Option (List Byte) := (stateOf o).map fun t => Memory.readList t.mem pa n

/-- The examples of R111 to R118. -/
theorem test_shifts :
    regOf (exec (.sll 3#5 2#5 31#5) (cpuAt 0#32 1#32 0#32)) 3#5 = some 0x80000000#32 ∧
    regOf (exec (.srl 3#5 2#5 31#5) (cpuAt 0#32 0x80000000#32 0#32)) 3#5 = some 1#32 ∧
    regOf (exec (.rotr 3#5 2#5 4#5) (cpuAt 0#32 0x12345678#32 0#32)) 3#5 = some 0x81234567#32 ∧
    regOf (exec (.sra 3#5 2#5 4#5) (cpuAt 0#32 0x80000000#32 0#32)) 3#5 = some 0xF8000000#32 ∧
    regOf (exec (.sllv 3#5 2#5 1#5) (cpuAt 33#32 1#32 0#32)) 3#5 = some 2#32 ∧
    regOf (exec (.srlv 3#5 2#5 1#5) (cpuAt 4#32 0xF0000000#32 0#32)) 3#5 = some 0x0F000000#32 ∧
    regOf (exec (.rotrv 3#5 2#5 1#5) (cpuAt 8#32 0x12345678#32 0#32)) 3#5 = some 0x78123456#32 ∧
    regOf (exec (.srav 3#5 2#5 1#5) (cpuAt 0x20#32 0x80000000#32 0#32)) 3#5 = some 0x80000000#32 := by
  and_intros <;> decide

/-- The examples of R119 to R122. -/
theorem test_moves_and_counts :
    regOf (exec (.movz 3#5 1#5 2#5) (cpuAt 7#32 0#32 9#32)) 3#5 = some 7#32 ∧
    regOf (exec (.movn 3#5 1#5 2#5) (cpuAt 7#32 5#32 9#32)) 3#5 = some 7#32 ∧
    regOf (exec (.movn 3#5 1#5 2#5) (cpuAt 7#32 0#32 9#32)) 3#5 = some 9#32 ∧
    regOf (exec (.clz 2#5 1#5) (cpuAt 0x00010000#32 0#32 0#32)) 2#5 = some 15#32 ∧
    regOf (exec (.clo 2#5 1#5) (cpuAt 0xFFFF0000#32 0#32 0#32)) 2#5 = some 16#32 := by
  and_intros <;> decide

/-- The examples of R123 to R126, R142 and R143, and the halt of R110. -/
theorem test_sums :
    regOf (exec (.add 3#5 1#5 2#5) (cpuAt 5#32 0xFFFFFFFD#32 0#32)) 3#5 = some 2#32 ∧
    runOf (exec (.add 3#5 1#5 2#5) (cpuAt 0x7FFFFFFF#32 1#32 0#32)) = some (.halted (.integerOverflow 0x08804000#32)) ∧
    regOf (exec (.addu 3#5 1#5 2#5) (cpuAt 0xFFFFFFFF#32 1#32 9#32)) 3#5 = some 0#32 ∧
    regOf (exec (.sub 3#5 1#5 2#5) (cpuAt 3#32 5#32 0#32)) 3#5 = some 0xFFFFFFFE#32 ∧
    runOf (exec (.sub 3#5 1#5 2#5) (cpuAt 0x80000000#32 1#32 0#32)) = some (.halted (.integerOverflow 0x08804000#32)) ∧
    regOf (exec (.subu 3#5 1#5 2#5) (cpuAt 0#32 1#32 0#32)) 3#5 = some 0xFFFFFFFF#32 ∧
    regOf (exec (.addi 2#5 1#5 0xFFFF#16) (cpuAt 10#32 0#32 0#32)) 2#5 = some 9#32 ∧
    regOf (exec (.addiu 2#5 1#5 1#16) (cpuAt 0x7FFFFFFF#32 0#32 0#32)) 2#5 = some 0x80000000#32 := by
  and_intros <;> decide

/-- The examples of R127 to R134 and R144 to R149. -/
theorem test_logic_and_compare :
    regOf (exec (.and 3#5 1#5 2#5) (cpuAt 0xFF00FF00#32 0x0FF00FF0#32 0#32)) 3#5 = some 0x0F000F00#32 ∧
    regOf (exec (.or 3#5 1#5 2#5) (cpuAt 0xFF00FF00#32 0x0FF00FF0#32 0#32)) 3#5 = some 0xFFF0FFF0#32 ∧
    regOf (exec (.xor 3#5 1#5 2#5) (cpuAt 0xFF00FF00#32 0x0FF00FF0#32 0#32)) 3#5 = some 0xF0F0F0F0#32 ∧
    regOf (exec (.nor 3#5 1#5 2#5) (cpuAt 0xFF00FF00#32 0x0FF00FF0#32 0#32)) 3#5 = some 0x000F000F#32 ∧
    regOf (exec (.slt 3#5 1#5 2#5) (cpuAt 0xFFFFFFFF#32 1#32 0#32)) 3#5 = some 1#32 ∧
    regOf (exec (.sltu 3#5 1#5 2#5) (cpuAt 0xFFFFFFFF#32 1#32 7#32)) 3#5 = some 0#32 ∧
    regOf (exec (.max 3#5 1#5 2#5) (cpuAt 0xFFFFFFFF#32 1#32 0#32)) 3#5 = some 1#32 ∧
    regOf (exec (.min 3#5 1#5 2#5) (cpuAt 0xFFFFFFFF#32 1#32 0#32)) 3#5 = some 0xFFFFFFFF#32 ∧
    regOf (exec (.slti 2#5 1#5 0xFFFF#16) (cpuAt 0xFFFFFFFE#32 0#32 0#32)) 2#5 = some 1#32 ∧
    regOf (exec (.sltiu 2#5 1#5 0xFFFF#16) (cpuAt 0xFFFFFFFE#32 0#32 0#32)) 2#5 = some 1#32 ∧
    regOf (exec (.sltiu 2#5 1#5 1#16) (cpuAt 5#32 7#32 0#32)) 2#5 = some 0#32 ∧
    regOf (exec (.andi 2#5 1#5 0xFF00#16) (cpuAt 0x12345678#32 0#32 0#32)) 2#5 = some 0x5600#32 ∧
    regOf (exec (.ori 2#5 1#5 0x8765#16) (cpuAt 0x12340000#32 0#32 0#32)) 2#5 = some 0x12348765#32 ∧
    regOf (exec (.xori 2#5 1#5 0x00FF#16) (cpuAt 0xFFFFFFFF#32 0#32 0#32)) 2#5 = some 0xFFFFFF00#32 ∧
    regOf (exec (.lui 2#5 0x0880#16) (cpuAt 0#32 0#32 0#32)) 2#5 = some 0x08800000#32 := by
  and_intros <;> decide

/-- The examples of R135 to R141, and the halt of a field that leaves the word. -/
theorem test_bit_fields :
    regOf (exec (.ext 3#5 2#5 4#5 8) (cpuAt 0#32 0x12345678#32 0#32)) 3#5 = some 0x67#32 ∧
    runOf (exec (.ext 3#5 2#5 31#5 2) (cpuAt 0#32 0#32 0#32)) = some (.halted (.unpredictableOperand 0x08804000#32)) ∧
    regOf (exec (.ins 3#5 2#5 8#5 15#5) (cpuAt 0#32 0x12345678#32 0xAAAAAAAA#32)) 3#5 = some 0xAAAA78AA#32 ∧
    runOf (exec (.ins 3#5 2#5 8#5 7#5) (cpuAt 0#32 0#32 0#32)) = some (.halted (.unpredictableOperand 0x08804000#32)) ∧
    regOf (exec (.wsbh 3#5 2#5) (cpuAt 0#32 0x11223344#32 0#32)) 3#5 = some 0x22114433#32 ∧
    regOf (exec (.wsbw 3#5 2#5) (cpuAt 0#32 0x11223344#32 0#32)) 3#5 = some 0x44332211#32 ∧
    regOf (exec (.seb 3#5 2#5) (cpuAt 0#32 0x00001280#32 0#32)) 3#5 = some 0xFFFFFF80#32 ∧
    regOf (exec (.seh 3#5 2#5) (cpuAt 0#32 0x00128000#32 0#32)) 3#5 = some 0xFFFF8000#32 := by
  and_intros <;> decide

/-- The example of R140. -/
theorem test_bitrev :
    regOf (exec (.bitrev 3#5 2#5) (cpuAt 0#32 0x12345678#32 0#32)) 3#5 = some 0x1E6A2C48#32 := by decide +kernel

/-- The examples of R150 to R159. -/
theorem test_multiply :
    regOf (exec (.mfhi 2#5) (hiLoAt 1#32 2#32 0#32 0#32)) 2#5 = some 1#32 ∧
    regOf (exec (.mflo 2#5) (hiLoAt 1#32 0xFFFFFFFE#32 0#32 0#32)) 2#5 = some 0xFFFFFFFE#32 ∧
    hiLoOf (exec (.mthi 1#5) (hiLoAt 1#32 2#32 0xDEADBEEF#32 0#32)) = some (0xDEADBEEF#32, 2#32) ∧
    hiLoOf (exec (.mtlo 1#5) (hiLoAt 1#32 2#32 7#32 0#32)) = some (1#32, 7#32) ∧
    hiLoOf (exec (.mult 1#5 2#5) (hiLoAt 0#32 0#32 0xFFFFFFFF#32 2#32)) = some (0xFFFFFFFF#32, 0xFFFFFFFE#32) ∧
    hiLoOf (exec (.multu 1#5 2#5) (hiLoAt 0#32 0#32 0xFFFFFFFF#32 2#32)) = some (1#32, 0xFFFFFFFE#32) ∧
    hiLoOf (exec (.madd 1#5 2#5) (hiLoAt 0#32 0xFFFFFFFF#32 1#32 1#32)) = some (1#32, 0#32) ∧
    hiLoOf (exec (.madd 1#5 2#5) (hiLoAt 0#32 0#32 0xFFFFFFFF#32 1#32)) = some (0xFFFFFFFF#32, 0xFFFFFFFF#32) ∧
    hiLoOf (exec (.maddu 1#5 2#5) (hiLoAt 0xFFFFFFFF#32 0xFFFFFFFF#32 0xFFFFFFFF#32 0xFFFFFFFF#32)) =
      some (0xFFFFFFFE#32, 0#32) ∧
    hiLoOf (exec (.msub 1#5 2#5) (hiLoAt 0#32 0#32 2#32 3#32)) = some (0xFFFFFFFF#32, 0xFFFFFFFA#32) ∧
    hiLoOf (exec (.msubu 1#5 2#5) (hiLoAt 0#32 0#32 0xFFFFFFFF#32 2#32)) = some (0xFFFFFFFE#32, 2#32) := by
  and_intros <;> decide

/-- The examples of R160 and R161. -/
theorem test_divide :
    hiLoOf (exec (.div 1#5 2#5) (hiLoAt 0#32 0#32 0xFFFFFFF9#32 2#32)) = some (0xFFFFFFFF#32, 0xFFFFFFFD#32) ∧
    hiLoOf (exec (.div 1#5 2#5) (hiLoAt 0#32 0#32 7#32 0xFFFFFFFE#32)) = some (1#32, 0xFFFFFFFD#32) ∧
    hiLoOf (exec (.divu 1#5 2#5) (hiLoAt 0#32 0#32 0xFFFFFFFF#32 2#32)) = some (1#32, 0x7FFFFFFF#32) := by
  and_intros <;> decide

/-- The examples of R175 to R181 and R187. -/
theorem test_loads :
    regOf (exec (.lb 2#5 1#5 0#16) (memAt 0x08800000#32 0#32 [0x80#8])) 2#5 = some 0xFFFFFF80#32 ∧
    regOf (exec (.lbu 2#5 1#5 0#16) (memAt 0x08800000#32 0#32 [0x80#8])) 2#5 = some 0x80#32 ∧
    regOf (exec (.lh 2#5 1#5 0#16) (memAt 0x08800000#32 0#32 [0x34#8, 0x92#8])) 2#5 = some 0xFFFF9234#32 ∧
    regOf (exec (.lhu 2#5 1#5 0#16) (memAt 0x08800000#32 0#32 [0x34#8, 0x92#8])) 2#5 = some 0x9234#32 ∧
    regOf (exec (.lw 2#5 1#5 0xFFFC#16) (memAt 0x08800004#32 0#32 (wordBytes 0x44332211#32))) 2#5 = some 0x44332211#32 ∧
    regOf (exec (.lwl 2#5 1#5 0#16) (memAt 0x08800001#32 0xAABBCCDD#32 (wordBytes 0x44332211#32))) 2#5 =
      some 0x2211CCDD#32 ∧
    regOf (exec (.lwl 2#5 1#5 0#16) (memAt 0x08800003#32 0xAABBCCDD#32 (wordBytes 0x44332211#32))) 2#5 =
      some 0x44332211#32 ∧
    regOf (exec (.lwr 2#5 1#5 0#16) (memAt 0x08800001#32 0xAABBCCDD#32 (wordBytes 0x44332211#32))) 2#5 =
      some 0xAA443322#32 ∧
    regOf (exec (.lwr 2#5 1#5 0#16) (memAt 0x08800003#32 0xAABBCCDD#32 (wordBytes 0x44332211#32))) 2#5 =
      some 0xAABBCC44#32 ∧
    fprOf (exec (.lwc1 4#5 1#5 0#16) (memAt 0x08800000#32 0#32 (wordBytes 0x3F800000#32))) 4#5 = some 0x3F800000#32 := by
  and_intros <;> decide

/-- The examples of R182 to R186 and R188. -/
theorem test_stores :
    bytesOf (exec (.sb 2#5 1#5 0#16) (memAt 0x08800003#32 0x12345678#32 (wordBytes 0x44332211#32))) 0x08800000 4 =
      some [0x11#8, 0x22#8, 0x33#8, 0x78#8] ∧
    bytesOf (exec (.sh 2#5 1#5 0#16) (memAt 0x08800002#32 0x12345678#32 (wordBytes 0x44332211#32))) 0x08800000 4 =
      some [0x11#8, 0x22#8, 0x78#8, 0x56#8] ∧
    bytesOf (exec (.sw 2#5 1#5 0#16) (memAt 0x08800000#32 0x12345678#32 [])) 0x08800000 5 =
      some [0x78#8, 0x56#8, 0x34#8, 0x12#8, 0#8] ∧
    bytesOf (exec (.swl 2#5 1#5 0#16) (memAt 0x08800001#32 0xAABBCCDD#32 (wordBytes 0x44332211#32))) 0x08800000 4 =
      some (wordBytes 0x4433AABB#32) ∧
    bytesOf (exec (.swl 2#5 1#5 0#16) (memAt 0x08800000#32 0xAABBCCDD#32 (wordBytes 0x44332211#32))) 0x08800000 4 =
      some (wordBytes 0x443322AA#32) ∧
    bytesOf (exec (.swr 2#5 1#5 0#16) (memAt 0x08800001#32 0xAABBCCDD#32 (wordBytes 0x44332211#32))) 0x08800000 4 =
      some (wordBytes 0xBBCCDD11#32) ∧
    bytesOf (exec (.swr 2#5 1#5 0#16) (memAt 0x08800003#32 0xAABBCCDD#32 (wordBytes 0x44332211#32))) 0x08800000 4 =
      some (wordBytes 0xDD332211#32) ∧
    bytesOf (exec (.swc1 4#5 1#5 0#16) ((memAt 0x08800000#32 0#32 []).setF 4#5 0xBF800000#32)) 0x08800000 4 =
      some [0#8, 0#8, 0x80#8, 0xBF#8] := by
  and_intros <;> decide

/-- The examples of R195 to R206. -/
theorem test_branches :
    pcOf (exec (.beq 1#5 2#5 3#16) (cpuAt 5#32 5#32 0#32)) = some (0x08804004#32, 0x08804010#32, true) ∧
    pcOf (exec (.bne 1#5 2#5 0xFFFF#16) (cpuAt 1#32 2#32 0#32)) = some (0x08804004#32, 0x08804000#32, true) ∧
    pcOf (exec (.blez 1#5 4#16) (cpuAt 0#32 0#32 0#32)) = some (0x08804004#32, 0x08804014#32, true) ∧
    pcOf (exec (.bgtz 1#5 4#16) (cpuAt 0xFFFFFFFF#32 0#32 0#32)) = some (0x08804004#32, 0x08804008#32, true) ∧
    pcOf (exec (.beql 1#5 2#5 3#16) (cpuAt 1#32 2#32 0#32)) = some (0x08804008#32, 0x0880400C#32, false) ∧
    pcOf (exec (.bnel 1#5 2#5 3#16) (cpuAt 1#32 2#32 0#32)) = some (0x08804004#32, 0x08804010#32, true) ∧
    pcOf (exec (.blezl 1#5 3#16) (cpuAt 1#32 0#32 0#32)) = some (0x08804008#32, 0x0880400C#32, false) ∧
    pcOf (exec (.bgtzl 1#5 3#16) (cpuAt 1#32 0#32 0#32)) = some (0x08804004#32, 0x08804010#32, true) ∧
    pcOf (exec (.bltz 1#5 4#16) (cpuAt 0x80000000#32 0#32 0#32)) = some (0x08804004#32, 0x08804014#32, true) ∧
    pcOf (exec (.bgez 1#5 4#16) (cpuAt 0#32 0#32 0#32)) = some (0x08804004#32, 0x08804014#32, true) ∧
    pcOf (exec (.bltzl 1#5 4#16) (cpuAt 0#32 0#32 0#32)) = some (0x08804008#32, 0x0880400C#32, false) ∧
    pcOf (exec (.bgezl 1#5 4#16) (cpuAt 0xFFFFFFFF#32 0#32 0#32)) = some (0x08804008#32, 0x0880400C#32, false) := by
  and_intros <;> decide

/-- The examples of R207 to R214. -/
theorem test_links_and_jumps :
    pcOf (exec (.bltzal 1#5 4#16) (cpuAt 5#32 0#32 0#32)) = some (0x08804004#32, 0x08804008#32, true) ∧
    regOf (exec (.bltzal 1#5 4#16) (cpuAt 5#32 0#32 0#32)) 31#5 = some 0x08804008#32 ∧
    pcOf (exec (.bgezal 1#5 4#16) (cpuAt 0#32 0#32 0#32)) = some (0x08804004#32, 0x08804014#32, true) ∧
    regOf (exec (.bgezal 1#5 4#16) (cpuAt 0#32 0#32 0#32)) 31#5 = some 0x08804008#32 ∧
    pcOf (exec (.bltzall 1#5 4#16) (cpuAt 0#32 0#32 0#32)) = some (0x08804008#32, 0x0880400C#32, false) ∧
    regOf (exec (.bltzall 1#5 4#16) (cpuAt 0#32 0#32 0#32)) 31#5 = some 0x08804008#32 ∧
    pcOf (exec (.bgezall 1#5 4#16) (cpuAt 0xFFFFFFFF#32 0#32 0#32)) = some (0x08804008#32, 0x0880400C#32, false) ∧
    regOf (exec (.bgezall 1#5 4#16) (cpuAt 0xFFFFFFFF#32 0#32 0#32)) 31#5 = some 0x08804008#32 ∧
    pcOf (exec (.j 0x0240000#26) (cpuAt 0#32 0#32 0#32)) = some (0x08804004#32, 0x00900000#32, true) ∧
    pcOf (exec (.j 0x2240000#26) (cpuAt 0#32 0#32 0#32)) = some (0x08804004#32, 0x08900000#32, true) ∧
    pcOf (exec (.jal 0x2240000#26) (cpuAt 0#32 0#32 0#32)) = some (0x08804004#32, 0x08900000#32, true) ∧
    regOf (exec (.jal 0x2240000#26) (cpuAt 0#32 0#32 0#32)) 31#5 = some 0x08804008#32 ∧
    pcOf (exec (.jr 1#5) (cpuAt 0x08804008#32 0#32 0#32)) = some (0x08804004#32, 0x08804008#32, true) ∧
    pcOf (exec (.jalr 31#5 1#5) (cpuAt 0x08900000#32 0#32 0#32)) = some (0x08804004#32, 0x08900000#32, true) ∧
    regOf (exec (.jalr 31#5 1#5) (cpuAt 0x08900000#32 0#32 0#32)) 31#5 = some 0x08804008#32 := by
  and_intros <;> decide

/-- The second example of R211: a jump in the last word of a region takes the region of its delay slot. -/
theorem test_jump_at_region_end :
    pcOf (exec (.j 0x10#26) { cpuAt 0#32 0#32 0#32 with cpu := Context.reset.jumpTo 0x0FFFFFFC#32 }) =
      some (0x10000000#32, 0x10000040#32, true) := by decide

/-- The examples of R216, R217 and R219 to R223. -/
theorem test_fpu_moves_and_branches :
    regOf (exec (.mfc1 2#5 1#5) (fpuAt 0x3F800000#32 0#32 0#32)) 2#5 = some 0x3F800000#32 ∧
    fprOf (exec (.mtc1 2#5 1#5) (cpuAt 0#32 0x40400000#32 0#32)) 1#5 = some 0x40400000#32 ∧
    (stateOf (exec (.ctc1 2#5 31#5) (cpuAt 0#32 0x00800003#32 0#32))).map (fun t => t.cpu.fcr31) = some 0x00800003#32 ∧
    pcOf (exec (.bc1f 4#16) (fpuAt 0#32 0#32 0#32)) = some (0x08804004#32, 0x08804014#32, true) ∧
    pcOf (exec (.bc1t 4#16) (fpuAt 0#32 0#32 0x00800000#32)) = some (0x08804004#32, 0x08804014#32, true) ∧
    pcOf (exec (.bc1fl 4#16) (fpuAt 0#32 0#32 0x00800000#32)) = some (0x08804008#32, 0x0880400C#32, false) ∧
    pcOf (exec (.bc1tl 4#16) (fpuAt 0#32 0#32 0#32)) = some (0x08804008#32, 0x0880400C#32, false) := by
  and_intros <;> decide

/-- The example of R218: RM and C as stored, and every other bit from the draw, whatever the draw is. -/
theorem test_cfc1 (d : Word) :
    (∀ i ∈ [0, 1, 23], (fcrRead 0x00800001#32 d).getLsbD i = (0x00800001#32).getLsbD i) ∧
    regOf (exec (.cfc1 2#5 31#5) (fpuAt 0#32 0#32 0x00800001#32)) 2#5 = some (fcrRead 0x00800001#32 (Config.draw 0)) := by
  constructor
  · simp [fcrRead]
  · rfl

/-- The examples of R224 to R231 and R234. -/
theorem test_fpu_arithmetic :
    fprOf (exec (.addS 0#5 1#5 2#5) (fpuAt 0x3DCCCCCD#32 0x3E4CCCCD#32 0#32)) 0#5 = some 0x3E99999A#32 ∧
    fprOf (exec (.subS 0#5 1#5 2#5) (fpuAt 0x3FC00000#32 0x40200000#32 0#32)) 0#5 = some 0xBF800000#32 ∧
    fprOf (exec (.mulS 0#5 1#5 2#5) (fpuAt 0x3FC00000#32 0x40000000#32 0#32)) 0#5 = some 0x40400000#32 ∧
    fprOf (exec (.divS 0#5 1#5 2#5) (fpuAt 0x3F800000#32 0x40400000#32 0#32)) 0#5 = some 0x3EAAAAAB#32 ∧
    fprOf (exec (.sqrtS 0#5 1#5) (fpuAt 0x40000000#32 0#32 0#32)) 0#5 = some 0x3FB504F3#32 ∧
    fprOf (exec (.absS 0#5 1#5) (fpuAt 0xC0200000#32 0#32 0#32)) 0#5 = some 0x40200000#32 ∧
    fprOf (exec (.movS 0#5 1#5) (fpuAt 0x7FC00001#32 0#32 0#32)) 0#5 = some 0x7FC00001#32 ∧
    fprOf (exec (.negS 0#5 1#5) (fpuAt 0x40200000#32 0#32 0#32)) 0#5 = some 0xC0200000#32 ∧
    fprOf (exec (.cvtSW 0#5 1#5) (fpuAt 0x01000001#32 0#32 0#32)) 0#5 = some 0x4B800000#32 ∧
    fprOf (exec (.cvtSW 0#5 1#5) (fpuAt 0xFFFFFFF9#32 0#32 0#32)) 0#5 = some 0xC0E00000#32 := by
  and_intros <;> decide

/-- The examples of R235 to R239. -/
theorem test_fpu_to_word :
    fprOf (exec (.roundWS 0#5 1#5) (fpuAt 0x40600000#32 0#32 0#32)) 0#5 = some 4#32 ∧
    fprOf (exec (.roundWS 0#5 1#5) (fpuAt 0x40200000#32 0#32 0#32)) 0#5 = some 2#32 ∧
    fprOf (exec (.cvtWS 0#5 1#5) (fpuAt 0x40200000#32 0#32 2#32)) 0#5 = some 3#32 ∧
    fprOf (exec (.cvtWS 0#5 1#5) (fpuAt 0xC0200000#32 0#32 3#32)) 0#5 = some 0xFFFFFFFD#32 ∧
    fprOf (exec (.truncWS 0#5 1#5) (fpuAt 0xC0200000#32 0#32 0#32)) 0#5 = some 0xFFFFFFFE#32 ∧
    fprOf (exec (.truncWS 0#5 1#5) (fpuAt 0x501502F9#32 0#32 0#32)) 0#5 = some 0x7FFFFFFF#32 ∧
    fprOf (exec (.ceilWS 0#5 1#5) (fpuAt 0x40200000#32 0#32 0#32)) 0#5 = some 3#32 ∧
    fprOf (exec (.floorWS 0#5 1#5) (fpuAt 0xC0200000#32 0#32 0#32)) 0#5 = some 0xFFFFFFFD#32 := by
  and_intros <;> decide

/-- C after a compare of `f[1]` and `f[2]`. -/
def condOf (i : Instr) (a b : Word) : Option Bool := (stateOf (exec i (fpuAt a b 0#32))).map fun t => fcrC t.cpu.fcr31

/-- The condition table of R240 on less (1.0, 2.0), equal (+0, -0) and unordered (NaN, 1.0). -/
theorem test_compares :
    ∀ c ∈ [(Instr.cF 1#5 2#5, false, false, false), (.cUn 1#5 2#5, false, false, true), (.cEq 1#5 2#5, false, true, false),
        (.cUeq 1#5 2#5, false, true, true), (.cOlt 1#5 2#5, true, false, false), (.cUlt 1#5 2#5, true, false, true),
        (.cOle 1#5 2#5, true, true, false), (.cUle 1#5 2#5, true, true, true), (.cSf 1#5 2#5, false, false, false),
        (.cNgle 1#5 2#5, false, false, true), (.cSeq 1#5 2#5, false, true, false), (.cNgl 1#5 2#5, false, true, true),
        (.cLt 1#5 2#5, true, false, false), (.cNge 1#5 2#5, true, false, true), (.cLe 1#5 2#5, true, true, false),
        (.cNgt 1#5 2#5, true, true, true)],
      condOf c.1 0x3F800000#32 0x40000000#32 = some c.2.1 ∧ condOf c.1 0#32 0x80000000#32 = some c.2.2.1 ∧
        condOf c.1 0x7FC00000#32 0x3F800000#32 = some c.2.2.2 := by decide

/-- The examples of R258 and R259. -/
theorem test_system :
    runOf (exec (.syscall 0x12#20) (cpuAt 0#32 0#32 0#32)) = some (.inHost (.hleCall 0x12#20)) ∧
    runOf (exec (.brk 0#20) (cpuAt 0#32 0#32 0#32)) = some (.halted (.break_ 0#20 0x08804000#32)) ∧
    pcOf (exec (.brk 0#20) (cpuAt 0#32 0#32 0#32)) = some (0x08804004#32, 0x08804008#32, false) := by
  and_intros <;> decide

/-- The examples of R189 and R260: nothing but the pc advance. -/
theorem test_cache_and_sync :
    exec (.cache 0x14#5 4#5 0#16) (cpuAt 1#32 2#32 3#32) = .next (cpuAt 1#32 2#32 3#32).advance ∧
    exec (.sync 0#5) (cpuAt 1#32 2#32 3#32) = .next (cpuAt 1#32 2#32 3#32).advance := ⟨rfl, rfl⟩

/-- The refusal of R261 with the final state of R283: `mfc0 $1, $12` (R262). -/
theorem test_refused_group :
    exec (.cop0 0x40016000#32) (cpuAt 1#32 2#32 3#32) =
      .refused (.refusedGroup .cop0 0x40016000#32 0x08804000#32
        { (cpuAt 1#32 2#32 3#32).advance with run := .refused .cop0 0x40016000#32 0x08804000#32 }) := rfl

/-- An instruction placed where the machine fetches is the one that the next step runs: `addiu $2, $1, 1`. -/
theorem test_step_runs_placed_word :
    (match step ((cpuAt 0x7FFFFFFF#32 0#32 0#32).withFetchWord 32 0x24220001) with
      | .next t => decide (t.x 2#5 = 0x80000000#32 ∧ t.cpu.pc = 0x08804004#32 ∧ t.cycles = 1)
      | _ => false) = true := by decide

/-! ## States that meet the hypotheses of the statements -/

/-- `DecodeEncode`, at both ends of EXT's size. -/
theorem test_witness_DecodeEncode :
    WellFormed (.ext 1#5 2#5 0#5 1) = true ∧ WellFormed (.ext 1#5 2#5 0#5 32) = true ∧
    WellFormed (.sc 0xE3FFFFFF#32) = true := by decide

/-- `EncodeDecode`. -/
theorem test_witness_EncodeDecode : decode 0x24220001#32 = .ok (.addiu 2#5 1#5 1#16) := by decide

/-- A running CPU at 0x08804000 with the word `w` there. -/
def fetchState (w : Word) : State := (cpuAt 7#32 0#32 0#32).storeBytes 0x08804000 (wordBytes w)

/-- `StepRunsDecoded`. -/
theorem test_witness_StepRunsDecoded :
    let s := fetchState 0x24220001#32
    s.run = .running ∧ s.dueEvent = none ∧ s.kernel.reschedRequested = false ∧ s.cpu.pc ≠ s.par.callbackReturnAddr ∧
    s.fetch s.cpu.pc = .ok 0x24220001#32 ∧ decode 0x24220001#32 = .ok (.addiu 2#5 1#5 1#16) :=
  ⟨rfl, rfl, rfl, by decide, rfl, rfl⟩

/-- A running CPU at `a`. -/
def runningAt (a : Word) : State := { cpuAt 0#32 0#32 0#32 with cpu := Context.reset.jumpTo a }

/-- The three clauses of `FetchAndDecodeHalts`: a misaligned pc, the first address past RAM, and a word that is no
instruction. -/
theorem test_witness_FetchAndDecodeHalts :
    (∀ a, (runningAt a).run = .running ∧ (runningAt a).dueEvent = none ∧ (runningAt a).kernel.reschedRequested = false ∧
      (runningAt a).cpu.pc = a) ∧
    ((0x08804001#32 : Word) ≠ Config.reference.callbackReturnAddr ∧ (0x08804001#32 : Word).toNat % 4 ≠ 0) ∧
    ((0x0A000000#32 : Word) ≠ Config.reference.callbackReturnAddr ∧ (0x0A000000#32 : Word).toNat % 4 = 0 ∧
      translate Config.reference 0x0A000000#32 = none) ∧
    (let s := fetchState 0x00000001#32;
      s.run = .running ∧ s.dueEvent = none ∧ s.kernel.reschedRequested = false ∧ s.cpu.pc = 0x08804000#32 ∧
      translate s.par 0x08804000#32 = some 0x08804000 ∧
      ∃ e, decode (Memory.read s.mem (0x08804000 + 3) ++ Memory.read s.mem (0x08804000 + 2) ++
        Memory.read s.mem (0x08804000 + 1) ++ Memory.read s.mem 0x08804000) = .error e) :=
  ⟨fun _ => ⟨rfl, rfl, rfl, rfl⟩, by decide, by decide, rfl, rfl, rfl, rfl, by decide, _, rfl⟩

/-- `Sums`, at the two ends of the range of a signed word. -/
theorem test_witness_Sums :
    (0x7FFFFFFE#32 : Word).toInt + (1#32 : Word).toInt = 2 ^ 31 - 1 ∧
    (cpuAt 0x7FFFFFFE#32 1#32 0#32).x 1#5 = 0x7FFFFFFE#32 ∧ (cpuAt 0x7FFFFFFE#32 1#32 0#32).x 2#5 = 1#32 ∧
    (0x80000001#32 : Word).toInt - (1#32 : Word).toInt = -2 ^ 31 ∧
    (0x80000001#32 : Word).toInt + (0xFFFF#16).toInt = -2 ^ 31 := by
  and_intros <;> decide

/-- `OverflowFollowsMode`, one past each end, in each mode. -/
theorem test_witness_OverflowFollowsMode :
    2 ^ 31 - 1 < (0x7FFFFFFF#32 : Word).toInt + (1#32 : Word).toInt ∧
    (0x80000000#32 : Word).toInt - (1#32 : Word).toInt < -2 ^ 31 ∧
    (cpuAt 0x7FFFFFFF#32 1#32 0#32).par.overflowMode = .halt ∧
    { cpuAt 0x7FFFFFFF#32 1#32 0#32 with par := { Config.reference with overflowMode := .wrap } }.par.overflowMode = .wrap := by
  and_intros <;> decide

/-- The four clauses of `BitFields` where they meet. -/
theorem test_witness_BitFields :
    (31#5).toNat + 1 ≤ 32 ∧ 32 < (31#5).toNat + 2 ∧ (8#5).toNat ≤ (8#5).toNat ∧ (7#5).toNat < (8#5).toNat := by decide

/-- `Divide` by a divisor other than 0. -/
theorem test_witness_Divide :
    ((cpuAt 0x80000000#32 1#32 0#32).x 2#5).toNat ≠ 0 ∧
    ¬ (((cpuAt 0x80000000#32 1#32 0#32).x 1#5).toInt = -2 ^ 31 ∧ ((cpuAt 0x80000000#32 1#32 0#32).x 2#5).toInt = -1) := by
  decide

/-- The corners of `Divide`, and the three values of `DIVU_BY_ZERO`. -/
theorem test_witness_Divide_corners :
    ((cpuAt 5#32 0#32 0#32).x 2#5).toNat = 0 ∧
    ((cpuAt 0x80000000#32 0xFFFFFFFF#32 0#32).x 1#5).toInt = -2 ^ 31 ∧
    ((cpuAt 0x80000000#32 0xFFFFFFFF#32 0#32).x 2#5).toInt = -1 ∧
    (∀ d : DivuByZero, { Config.reference with divuByZero := d }.divuByZero = d) :=
  ⟨by decide, by decide, by decide, fun _ => rfl⟩

/-- `Loads` and `StoresWrite`, at the last byte, halfword and word of RAM. -/
theorem test_witness_Loads_StoresWrite :
    (memAt 0x09FFFFFF#32 0#32 [1#8]).memWf = true ∧
    dataAddress (memAt 0x09FFFFFF#32 0#32 [1#8]).par ((memAt 0x09FFFFFF#32 0#32 [1#8]).ea 1#5 0#16) 1 = .ok 0x09FFFFFF ∧
    dataAddress (memAt 0x09FFFFFF#32 0#32 [1#8]).par ((memAt 0x09FFFFFF#32 0#32 [1#8]).ea 1#5 0xFFFF#16) 2 =
      .ok 0x09FFFFFE ∧
    dataAddress (memAt 0x09FFFFFF#32 0#32 [1#8]).par ((memAt 0x09FFFFFF#32 0#32 [1#8]).ea 1#5 0xFFFD#16) 4 =
      .ok 0x09FFFFFC := ⟨rfl, rfl, rfl, rfl⟩

/-- `StoreThenLoad`: the cached and the uncached name of one word. -/
theorem test_witness_StoreThenLoad :
    let s := cpuAt 0x08800000#32 0x48800000#32 0#32
    s.memWf = true ∧ s.par.segments = Config.referenceSegments ∧ dataAddress s.par (s.ea 1#5 0#16) 4 = .ok 0x08800000 ∧
    dataAddress s.par (s.ea 2#5 0#16) 4 = .ok 0x08800000 ∧
    (s.ea 2#5 0#16).extractLsb' 0 29 = (s.ea 1#5 0#16).extractLsb' 0 29 ∧
    dataAddress s.par (s.ea 2#5 3#16) 1 = .ok 0x08800003 ∧
    (s.ea 2#5 3#16).extractLsb' 0 29 = (s.ea 1#5 0#16 + BitVec.ofNat 32 3).extractLsb' 0 29 :=
  ⟨rfl, rfl, rfl, rfl, rfl, rfl, rfl⟩

/-- LWL, LWR, SWL and SWR in `Loads` and `StoresWrite`, on each of the four lanes. -/
theorem test_witness_Loads_StoresWrite_unaligned :
    (memAt 0x08800000#32 0#32 [1#8]).memWf = true ∧
    ∀ k : Fin 4, dataAddress (memAt 0x08800000#32 0#32 [1#8]).par
      ((memAt 0x08800000#32 0#32 [1#8]).ea 1#5 (BitVec.ofNat 16 k.val) &&& 0xFFFFFFFC#32) 4 = .ok 0x08800000 := by
  refine ⟨rfl, fun k => ?_⟩
  match k with
  | 0 => rfl
  | 1 => rfl
  | 2 => rfl
  | 3 => rfl

/-- The clauses of `DataAccessHalts`, at the first address past RAM and one byte off. -/
theorem test_witness_DataAccessHalts :
    ((cpuAt 0x08800001#32 0#32 0#32).ea 1#5 0#16).toNat % 2 ≠ 0 ∧
    ((cpuAt 0x08800002#32 0#32 0#32).ea 1#5 0#16).toNat % 4 ≠ 0 ∧
    translateRange Config.reference ((cpuAt 0x0A000000#32 0#32 0#32).ea 1#5 0#16) 1 = none ∧
    ((cpuAt 0x0A000000#32 0#32 0#32).ea 1#5 0#16).toNat % 4 = 0 ∧
    translateRange Config.reference ((cpuAt 0x0A000000#32 0#32 0#32).ea 1#5 0#16) 2 = none ∧
    translateRange Config.reference ((cpuAt 0x0A000000#32 0#32 0#32).ea 1#5 0#16) 4 = none ∧
    translateRange Config.reference ((cpuAt 0x0A000003#32 0#32 0#32).ea 1#5 0#16 &&& 0xFFFFFFFC#32) 4 = none := by
  and_intros <;> decide

/-- `OrdinaryBranches`, `LikelyBranches` and `LinkingBranchesAndJumps` need a state outside a delay slot, and
`TransferInDelaySlotHalts` one inside and a control transfer; `StraightLinePc` an instruction that is none. -/
theorem test_witness_ControlTransfers :
    (cpuAt 0#32 0#32 0#32).cpu.ds = false ∧ ((cpuAt 0#32 0#32 0#32).branchTo 0#32).cpu.ds = true ∧
    transfersControl (.bgezall 1#5 0#16) = true ∧ transfersControl (.addu 1#5 2#5 3#5) = false ∧
    (cpuAt 0#32 0#32 0#32).cpu.nextPc = (cpuAt 0#32 0#32 0#32).cpu.pc + 4#32 := by decide

/-- `UnsupportedFcrHalts`, at 0, 1 and 30. -/
theorem test_witness_UnsupportedFcrHalts :
    (0#5 : BitVec 5) ≠ 31#5 ∧ (1#5 : BitVec 5) ≠ 0#5 ∧ (1#5 : BitVec 5) ≠ 31#5 ∧ (30#5 : BitVec 5) ≠ 0#5 ∧
    (30#5 : BitVec 5) ≠ 31#5 := by decide

/-- The classes of operands of `FpArithmeticSpecials` and `FpToWord`, which are any words under the reference parameters, and an
operand that `flush` reads as zero. -/
theorem test_witness_FpArithmeticSpecials :
    fpIsNan 0x7FC00000#32 ∧ fpIsInf 0x7F800000#32 ∧ fpIsInf 0xFF800000#32 ∧ fpIsZero 0x80000000#32 ∧
    ¬ fpIsZero 0x80000001#32 ∧ ¬ fpIsNan 0x80000001#32 ∧ (0x80000001#32 : Word).msb = true ∧
    (fpuAt 0#32 0#32 0#32).par.fpArith = .ieeeNearestEven ∧
    (∀ a b, (fpuAt a b 0#32).fBits 1#5 = a ∧ (fpuAt a b 0#32).fBits 2#5 = b) ∧
    { fpuAt 0x80000001#32 0#32 0#32 with par := { Config.reference with fpFtz := .flush } }.fBits 1#5 = 0x80000000#32 := by
  unfold fpIsNan fpIsInf fpIsZero
  refine ⟨by decide, by decide, by decide, by decide, by decide, by decide, by decide, rfl, fun _ _ => ⟨rfl, rfl⟩, by decide⟩

/-- `FpResultsRounded` and `FpToWord`, at the largest number, at 2^31 and at 1. -/
theorem test_witness_FpResultsRounded :
    fpValue 0x7F7FFFFF#32 = some (2 ^ 128 - 2 ^ 104) ∧ fpValue 0x4F000000#32 = some (2 ^ 31) ∧ fpValue 0x3F800000#32 = some 1 ∧
    fpValue 0xCF000001#32 = some (-2 ^ 31 - 2 ^ 8) ∧
    (fpuAt 0x7F7FFFFF#32 0x3F800000#32 0#32).fBits 1#5 = 0x7F7FFFFF#32 ∧
    (fpuAt 0x7F7FFFFF#32 0x3F800000#32 0#32).fBits 2#5 = 0x3F800000#32 := by
  refine ⟨?_, ?_, ?_, ?_, by decide, by decide⟩ <;> simp [fpValue, BitVec.msb_eq_decide] <;> norm_num

/-- `HaltLeavesOnlyTheAdvance`. -/
theorem test_witness_HaltLeavesOnlyTheAdvance :
    (cpuAt 0#32 0#32 0#32).run = .running ∧
    exec (.brk 0#20) (cpuAt 0#32 0#32 0#32) = .next ((cpuAt 0#32 0#32 0#32).halted (.break_ 0#20 0x08804000#32)) ∧
    ((cpuAt 0#32 0#32 0#32).halted (.break_ 0#20 0x08804000#32)).run = .halted (.break_ 0#20 0x08804000#32) :=
  ⟨rfl, rfl, rfl⟩

/-- `OnlyNamedInstructionsWrite` and `VectorUnitNotReached`: an instruction outside each class that answers a next state. -/
theorem test_witness_OnlyNamedInstructionsWrite :
    mayWriteHiLo (.addu 1#5 2#5 3#5) = false ∧ mayWriteFcr31 (.addu 1#5 2#5 3#5) = false ∧
    mayStore (.addu 1#5 2#5 3#5) = false ∧
    ∃ t, exec (.addu 1#5 2#5 3#5) (cpuAt 0#32 0#32 0#32) = .next t := ⟨rfl, rfl, rfl, _, rfl⟩

/-- `MemoryStaysCanonical` and `TimeNeverGoesBack`: a state in canonical form, with a byte in memory, that steps. -/
theorem test_witness_MemoryStaysCanonical :
    (fetchState 0x24220001#32).memWf = true ∧ ∃ t, step (fetchState 0x24220001#32) = .next t := ⟨rfl, _, rfl⟩

/-- A thread for the kernel's tests: UID 1 if it is the first object. -/
def someThread : Thread := Thread.create 0x08804000#32 0x20 0x09F00000 0x1000 0 0#32 true false

/-- The same, RUN. -/
def runThread : Thread := { someThread with state := .run }

/-- A callback of thread 1, notified once. -/
def someCallback : Callback :=
  { thread := 1, entry := 0x08805000#32, common := 7#32, notifyCount := 1#32, notifyArg := 9#32 }

/-- Thread `t` has UID 1 and is current; callback `c` has UID 2; thread 3 is READY; object 4 is `p`. -/
def kernelOf (t : Thread) (c : Callback) (p : Payload) : State :=
  { cpuAt 0#32 0#32 0#32 with
    kernel :=
      { Kernel.reset with
        objects := [(1, { name := "t", payload := .thread t }), (2, { name := "c", payload := .callback c }),
          (3, { name := "u", payload := .thread { someThread with state := .ready } }), (4, { name := "p", payload := p })]
        ready := Kernel.reset.ready.set 0x20 [3]
        current := some 1 } }

/-- The same with a file as object 4. -/
def kernelWith (t : Thread) (c : Callback) : State := kernelOf t c .file

/-- Thread 1 is RUN and current; thread 3 waits for `r` on cell 0; object 4 is `p`. -/
def waitingFor (r : WaitReason) (p : Payload) : State :=
  { cpuAt 0#32 0#32 0#32 with
    kernel :=
      { Kernel.reset with
        objects := [(1, { name := "t", payload := .thread runThread }),
          (3, { name := "u", payload := .thread { someThread with state := .wait, waitReason := some r, waitObject := some 0 } }),
          (4, { name := "p", payload := p })]
        waitObjects := [(0, { ended := false, result := none })]
        nextWaitObject := 1
        current := some 1 } }

/-- Thread 3's record. -/
def someRecord (cond : WaitCond) : WaitRecord := { thread := 3, waitObject := 0, timer := none, cond := cond }

/-- `MissingImportReturnsZero`, at the largest code. -/
theorem test_witness_MissingImportReturnsZero :
    let s := (kernelWith runThread someCallback).enterHost (.hleCall 0xFFFFF#20)
    s.run = .inHost (.hleCall 0xFFFFF#20) ∧ s.kernel.imports[(0xFFFFF#20).toNat]? = none ∧ s.kernel.closing = false ∧
      s.dueEvent = none ∧ s.kernel.reschedRequested = false ∧ s.kernel.current = some 1 ∧
      s.kernel.thread? 1 = some runThread ∧ runThread.state = .run := ⟨rfl, rfl, rfl, rfl, rfl, rfl, rfl, rfl⟩

/-- The two clauses of `CallbackReturnAddress`. -/
theorem test_witness_CallbackReturnAddress :
    let s := { kernelWith { runThread with callbackStack := [(Context.reset, none)] } someCallback with
      cpu := Context.reset.jumpTo 0x08000000#32 }
    let u := runningAt 0x08000000#32
    (s.run = .running ∧ s.dueEvent = none ∧ s.kernel.reschedRequested = false ∧ s.cpu.pc = s.par.callbackReturnAddr ∧
      s.kernel.current = some 1 ∧ ∃ t, s.kernel.thread? 1 = some t ∧ t.callbackStack ≠ []) ∧
    (u.run = .running ∧ u.dueEvent = none ∧ u.kernel.reschedRequested = false ∧ u.cpu.pc = u.par.callbackReturnAddr ∧
      u.kernel.current = none) :=
  ⟨⟨rfl, rfl, rfl, rfl, rfl, _, rfl, by simp⟩, rfl, rfl, rfl, rfl, rfl⟩

/-- `CallbackInjection`, of a thread in no wait and of one that is reentrant, in a wait and in a callback. -/
theorem test_witness_CallbackInjection :
    (let th := { runThread with callbacksPending := [2] };
      (kernelWith th someCallback).kernel.thread? 1 = some th ∧ th.callbacksRunning = [] ∧ th.waitObject = none) ∧
    (let th := { runThread with callbacksPending := [2], callbacksRunning := [5], reentrant := true, waitObject := some 0 };
      (kernelWith th someCallback).kernel.thread? 1 = some th ∧ th.reentrant = true) ∧
    ∀ th, (kernelWith th someCallback).kernel.callback? 2 = some someCallback :=
  ⟨⟨rfl, rfl, rfl⟩, ⟨rfl, rfl⟩, fun _ => rfl⟩

/-- R326 and R327: in a callback out of a wait that allows callbacks, a notification of another callback is pending at once. -/
theorem test_notify_in_callback :
    let th := { runThread with
      callbacksRunning := [5], allowsCallbacks := false, waitAllowsCallbacks := true
      callbackStack := [(Context.reset, some { reason := some .sleep, waitObject := 0 })] }
    ((((kernelWith th someCallback).notifyCallback 2 someCallback 9#32).kernel.thread? 1).map
      fun t => t.callbacksPending) = some [2] := by decide

/-- `CallbackReturnRestores`. -/
theorem test_witness_CallbackReturnRestores :
    let th := { runThread with callbackStack := [(Context.reset, none)], callbacksRunning := [2] }
    let s := (kernelWith th { someCallback with notifyCount := 0#32 }).enterHost .callbackReturn
    s.run = .inHost .callbackReturn ∧ s.kernel.current = some 1 ∧ s.kernel.thread? 1 = some th ∧ th.state = .run ∧
      th.callbacksPending = [] ∧ s.dueEvent = none ∧ s.kernel.reschedRequested = false ∧ s.kernel.closing = false ∧
      ∀ d c, s.kernel.callback? d = some c → c.notifyCount = 0#32 := by
  refine ⟨rfl, rfl, rfl, rfl, rfl, rfl, rfl, rfl, fun d c h => ?_⟩
  by_cases h1 : d = 1
  · subst h1; cases h
  by_cases h2 : d = 2
  · subst h2; cases h; rfl
  by_cases h3 : d = 3
  · subst h3; cases h
  by_cases h4 : d = 4
  · subst h4; cases h
  · simp [Kernel.callback?, Kernel.lookup, kernelWith, kernelOf, State.enterHost, beq_false_of_ne (Ne.symm h1),
      beq_false_of_ne (Ne.symm h2), beq_false_of_ne (Ne.symm h3), beq_false_of_ne (Ne.symm h4)] at h

/-- `ContextSwitch`: from thread 1, which is RUN, to thread 3. -/
theorem test_witness_ContextSwitch :
    let s := kernelWith runThread someCallback
    s.kernel.current = some 1 ∧ s.kernel.thread? 1 = some runThread ∧
      s.kernel.thread? 3 = some { someThread with state := .ready } ∧ someThread.callbacksPending = [] ∧
      someThread.waitObject = none := ⟨rfl, rfl, rfl, rfl, rfl⟩

/-- `ReadyQueueInvariant` and `PriorityChange`: thread 1 is RUN and current, thread 3 READY in its level. -/
theorem test_witness_SchedWf (p : Payload) (hp : ∀ t, p ≠ .thread t) : SchedWf (kernelOf runThread someCallback p).kernel := by
  have hv : ∀ u, (kernelOf runThread someCallback p).kernel.view u =
      if u = 1 then some (.run, 0x20) else if u = 3 then some (.ready, 0x20) else none := by
    intro u
    have hq : p.view = none := by
      cases p with
      | thread t => exact absurd rfl (hp t)
      | _ => rfl
    simp only [Kernel.view, Kernel.lookup, kernelOf, List.find?_cons, List.find?_nil]
    by_cases h1 : u = 1
    · subst h1; rfl
    by_cases h2 : u = 2
    · subst h2; rfl
    by_cases h3 : u = 3
    · subst h3; rfl
    by_cases h4 : u = 4
    · subst h4; simpa using hq
    · simp [h1, h3, beq_false_of_ne (Ne.symm h1), beq_false_of_ne (Ne.symm h2), beq_false_of_ne (Ne.symm h3),
        beq_false_of_ne (Ne.symm h4)]
  have hr : ∀ q : Fin 128, (kernelOf runThread someCallback p).kernel.ready[q] = if q = 0x20 then [3] else [] := by
    intro q
    have hz : Kernel.reset.ready[q] = [] := by simp [Kernel.reset]
    simp only [kernelOf, Fin.getElem_fin, Vector.getElem_set] at hz ⊢
    by_cases h : q = 0x20
    · subst h; rfl
    · have hn : ¬ 32 = q.val := fun e => h (Fin.ext e.symm)
      rw [if_neg h, if_neg hn, hz]
  refine (schedWf_iff _).mpr ⟨fun u q => ?_, fun q => ?_, fun u q h => ?_⟩
  · rw [hv, hr]
    by_cases h1 : u = 1 <;> by_cases h3 : u = 3 <;> by_cases hq : q = 0x20 <;> simp_all [eq_comm]
  · rw [hr]; split <;> simp
  · rw [hv] at h
    by_cases h1 : u = 1
    · subst h1; rfl
    · rw [if_neg h1] at h; split at h <;> cases h

/-- `ReadyQueueInvariant`: such a state that steps. -/
theorem test_witness_ReadyQueueInvariant :
    let s := (kernelWith runThread someCallback).storeBytes 0x08804000 (wordBytes 0x24220001#32)
    SchedWf s.kernel ∧ ∃ t, step s = .next t := ⟨test_witness_SchedWf _ (by simp), _, rfl⟩

/-- `PriorityChange`, of the READY thread 3, the RUN thread 1, and with a record of thread 3 in a priority-ordered queue. -/
theorem test_witness_PriorityChange :
    let p : Payload := .semaphore { count := 0, max := 1, priorityOrdered := true, queue := [someRecord (.need 1)] }
    let k := (kernelOf runThread someCallback p).kernel
    SchedWf k ∧ k.thread? 3 = some { someThread with state := .ready } ∧ k.thread? 1 = some runThread ∧
      k.lookup 4 = some { name := "p", payload := p } ∧ p.priorityOrdered = true ∧ ∃ r ∈ p.queue, r.thread = 3 :=
  ⟨test_witness_SchedWf _ (by simp), rfl, rfl, rfl, rfl, _, List.mem_singleton.mpr rfl, rfl⟩

/-- R312 and R314: the READY thread 3 changed to priority 8 leaves level 32 and joins level 8. -/
theorem test_change_priority :
    let k := ((kernelWith runThread someCallback).changePriority 3 { someThread with state := .ready } 8).kernel
    k.ready[8] = [3] ∧ k.ready[0x20] = [] := by decide

/-- The clauses of `MutexLockAndUnlock` for thread 1: a free mutex, its own, thread 3's, and its own with thread 3 waiting, at the
last unlock and before it. -/
theorem test_witness_MutexLockAndUnlock :
    let x (o : Option Nat) (n : Nat) (q : List WaitRecord) : Mutex :=
      { owner := o, lockCount := n, priorityOrdered := true, queue := q }
    let s (m : Mutex) := waitingFor (.mutex 4) (.mutex m)
    (∀ m, (s m).kernel.mutex? 4 = some m ∧ (s m).kernel.current = some 1 ∧ (s m).kernel.thread? 1 = some runThread) ∧
    (x none 0 []).lockCount = 0 ∧ (x (some 1) 1 []).lockCount ≠ 0 ∧ (x (some 3) 1 []).owner ≠ some 1 ∧
    (x (some 1) 1 []).lockCount < 2 ∧ 1 < (x (some 1) 2 []).lockCount ∧ 1 = (x (some 1) 1 []).lockCount ∧
    (∀ m, ∃ w, (s m).kernel.thread? 3 = some w ∧ w.waitObject = some (someRecord (.locks 1)).waitObject ∧ w.state = .wait) ∧
    (x (some 1) 1 [someRecord (.locks 1)]).queue = someRecord (.locks 1) :: [] :=
  ⟨fun _ => ⟨rfl, rfl, rfl⟩, rfl, by simp, by simp, by simp, by simp, rfl, fun _ => ⟨_, rfl, rfl, rfl⟩, rfl⟩

/-- R334: at the last unlock the mutex and its count go to the head of the queue, thread 3, which is READY. -/
theorem test_unlock_grants :
    let x : Mutex := { owner := some 1, lockCount := 2, priorityOrdered := false, queue := [someRecord (.locks 5)] }
    ((waitingFor (.mutex 4) (.mutex x)).unlockMutex 4 x 2).map (fun t =>
      ((t.kernel.mutex? 4).map fun m => (m.owner, m.lockCount, m.queue), (t.kernel.thread? 3).map fun w => w.state)) =
      some (some (some 3, 5, []), some .ready) := by decide

/-- The clauses of `EventFlagScanAndWait`: a pattern that fits in each mode, with an output cell and without. -/
theorem test_witness_EventFlagScanAndWait :
    let x : EventFlag := { pattern := 6#32, priorityOrdered := false, queue := [] }
    let s := waitingFor .sleep (.eventFlag x)
    s.kernel.eventFlag? 4 = some x ∧ s.memWf = true ∧ x.pattern &&& 3#32 ≠ 0#32 ∧ x.pattern &&& 2#32 = 2#32 ∧
      dataAddress s.par 0x08800000#32 4 = .ok 0x08800000 ∧ (s.setX 4#5 4#32).argNat 0 = 4 ∧ (s.setX 5#5 0#32).arg 1 = 0#32 :=
  ⟨rfl, rfl, by decide, by decide, rfl, by decide, by decide⟩

/-- `EventFlagScanAndWait`, Set with a waiter: thread 3 waits for bits 0 and 1 with an output cell, and bit 0 is there. R336: Set of
bit 1 grants it, writes 3 to the cell and takes the bits out. -/
theorem test_witness_EventFlagScanAndWait_set :
    let r := someRecord (.bits 3#32 .and true 0x08800000#32)
    let x : EventFlag := { pattern := 1#32, priorityOrdered := false, queue := [r] }
    let s := waitingFor (.eventFlag 4) (.eventFlag x)
    s.kernel.eventFlag? 4 = some x ∧ s.memWf = true ∧ flagScan (x.pattern ||| 2#32) x.queue = (0#32, [], [(r, 3#32)]) ∧
      r.out = 0x08800000#32 ∧ dataAddress s.par r.out 4 = .ok 0x08800000 ∧
      (match s.setEventFlag 4 x 2#32 with
        | .ok t => decide ((t.kernel.thread? 3).map (fun w => w.state) = some .ready ∧ Memory.word t.mem 0x08800000 = 3#32)
        | .error _ => false) = true := by
  and_intros <;> decide

/-- R336: the first waiter takes bit 0 and clears it, so the second does not match and stays; the third matches bit 1. -/
theorem test_flag_scan :
    let r (n : Nat) (b : Word) (c : Bool) : WaitRecord :=
      { thread := n, waitObject := n, timer := none, cond := .bits b .and c 0#32 }
    flagScan 3#32 [r 1 1#32 true, r 2 1#32 false, r 3 2#32 false] =
      (2#32, [r 2 1#32 false], [(r 1 1#32 true, 3#32), (r 3 2#32 false, 2#32)]) := by decide

/-- `TimeoutFires`, of a semaphore and of a mutex. -/
theorem test_witness_TimeoutFires :
    let o := { ended := false, result := none : WaitObject }
    ∀ r ∈ [WaitReason.semaphore 4, .mutex 4], ∀ p,
      let s := waitingFor r p
      s.memWf = true ∧ s.kernel.waitObject? 0 = some o ∧ dataAddress s.par 0x08800000#32 4 = .ok 0x08800000 ∧
      ∃ th, s.kernel.thread? 3 = some th ∧ th.waitObject = some 0 ∧ th.state = .wait :=
  fun _ _ _ => ⟨rfl, rfl, rfl, _, rfl, rfl, rfl⟩

/-- R323: the record leaves the queue, thread 3 is READY, and the wait's status is the timeout's. -/
theorem test_timeout :
    let p : Payload := .semaphore { count := 0, max := 1, priorityOrdered := false, queue := [someRecord (.need 1)] }
    let s := waitingFor (.semaphore 4) p
    let t := s.fireEvent { handle := 0, due := 0, action := .waitTimeout 3 0 0x08800000#32 (.semaphore 4) }
    t.kernel.ready[0x20] = [3] ∧ t.kernel.waitObject? 0 = some { ended := true, result := some s.par.status.timeout } ∧
      (t.kernel.semaphore? 4).map (fun x => x.queue) = some [] := by decide

/-- The two clauses of `UidAllocation`: the first free slot after wrapping past `UID_SLOTS - 1`, and a table that is full. -/
theorem test_witness_UidAllocation :
    let o : KernelObject := { name := "f", payload := .file }
    (Kernel.create { Kernel.reset with objects := [(3, o)], uidNext := 3 } 4 o).map (fun r : Nat × Kernel => r.1) = some 1 ∧
    Kernel.create { Kernel.reset with objects := [(1, o)] } 2 o = none := ⟨rfl, rfl⟩

/-- `SemaphoreScan`: under `head_blocks` the second record needs more than is left and stops the scan, under `skip` it does not. -/
theorem test_witness_SemaphoreScan :
    let r (n : Nat) : WaitRecord := { thread := n, waitObject := n, timer := none, cond := .need n }
    semaphoreScan .headBlocks 3 [r 2, r 2, r 1] = (1, [r 2, r 1], [r 2]) ∧
    semaphoreScan .skip 3 [r 2, r 2, r 1] = (0, [r 2], [r 2, r 1]) := by decide

/-- The clauses of `AllocatorInvariants`: an allocation of the whole range, one at an address, and a free. -/
theorem test_witness_AllocatorInvariants :
    let a := Allocator.create 0x08800000 0x1000
    a.wf = true ∧ (a.alloc Config.reference 0x1000 "a" 0 false false).isSome = true ∧
    (a.allocAt 0x08800FFF 1 "a").isSome = true ∧
    ((a.allocAt 0x08800FFF 1 "").any fun b => b.wf && (b.free 0x08800FFF).isSome) = true := by decide

/-- `EventOrder`: of two events that are due together, the one scheduled first; it fires at its time and not before, while the CPU
runs, at a host call, at a callback return and while no thread is current. -/
theorem test_witness_EventOrder :
    let e (h d : Nat) : Event := { handle := h, due := d, action := .signal 0 }
    let s (c : Nat) : State :=
      { cpuAt 0#32 0#32 0#32 with cycles := c, kernel := { Kernel.reset with events := [e 0 9, e 1 5, e 2 5] } }
    firstEvent [e 0 9, e 1 5, e 2 5] = some (e 1 5) ∧ (s 4).dueEvent = none ∧ (s 5).dueEvent = some (e 1 5) ∧
    (∀ r, ({ s 5 with run := r } : State).dueEvent = some (e 1 5)) ∧ (s 5).kernel.closing = false ∧ (s 5).run = .running ∧
    (s 5).loader = none := by
  refine ⟨by decide, by decide, by decide, fun _ => rfl, rfl, rfl, rfl⟩

/-- The clauses of `GpuListFlow`: a stack with room, a full one and an empty one, and words that the reference map reads as
commands. -/
theorem test_witness_GpuListFlow :
    (GeList.create 0#32 0#32).callStack.length < Config.reference.geStackDepth ∧
    Config.reference.geStackDepth ≤
      { GeList.create 0#32 0#32 with callStack := List.replicate 32 (0#32, 0#32) }.callStack.length ∧
    (GeList.create 0#32 0#32).callStack = [] ∧
    { GeList.create 0#32 0#32 with callStack := [(4#32, 8#32)] }.callStack = [(4#32, 8#32)] ∧
    ∀ (p : BitVec 24) (cmd : BitVec 8), geCommand State.reset.par (cmd ++ p) = (cmd, p) ∧
      geOther State.reset.par (cmd ++ p) = none := by
  refine ⟨by decide, ?_, rfl, rfl, fun p cmd => ?_⟩
  · simp [Config.reference]
  · refine ⟨Prod.ext ?_ ?_, rfl⟩
    · ext i hi
      have h : (cmd ++ p).getLsbD (24 + i) = _ := BitVec.getLsbD_append
      simp [geCommand, geMeaning, State.reset, Config.reference, h, BitVec.getLsbD_eq_getElem, hi]
    · ext i hi
      have h : (cmd ++ p).getLsbD i = _ := BitVec.getLsbD_append
      simp [geCommand, geMeaning, State.reset, Config.reference, h, BitVec.getLsbD_eq_getElem, hi]

/-- A command that R362 gives no action, for `GpuCommandEffects`: NOP and a number outside the map. -/
theorem test_witness_GpuCommandEffects : State.reset.par.geCommands = [] ∧
    ∀ w ∈ [(0#32 : Word), 0xFF000000#32], geOther State.reset.par w = none ∧
      (w.extractLsb' 24 8).toNat ∉ [0x01, 0x02, 0x04, 0x08, 0x0A, 0x0B, 0x0C, 0x0F, 0x13,
      0x14, 0x3A, 0x3B, 0x3C, 0x3D, 0x3E, 0x3F, 0xC4, 0xCB] := by
  simp [State.reset, Config.reference, geOther, geMeaning]

/-- A command that a `GE_COMMANDS` gives actions that R362 does not have writes `reg` under its own number (R359), and the number of its
actions is the map's (`GpuCommandEffects`). -/
theorem test_other_command :
    let p := { Config.reference with geCommands := [{ number := 0x05#8, meaning := .other 3 }] }
    geCommand p 0x05000007#32 = (0x05#8, 7#24) ∧ geOther p 0x05000007#32 = some 3 := by decide

/-- The literal vertex types of C1: a 16-bit uv, a colour of four bytes and a float position have offsets 0, 4 and 8 and stride 20 (R370),
and a colour code above 3 is reserved. -/
theorem test_literal_vertex_types :
    let f : VertexFormat :=
      { types := .literal 4, tc := 2, col := 1, nrm := 0, pos := 3, wt := 0, idx := 3, wcount := 1, mcount := 1, through := false }
    f.colOffset = 4 ∧ f.posOffset = 8 ∧ f.stride = 20 ∧ f.indexSize = 4 ∧ f.refused = false ∧
      { f with col := 7 }.refused = true := by decide

/-- A vertex at a position of the screen. -/
def vertexAt (x y : Int) : GeVertex := { X := x, Y := y, Z := 0, s := 0#32, t := 0#32, c := Rgba.zero, behind := false }

/-- The two clauses of `TopLeftRule`. -/
theorem test_witness_TopLeftRule :
    Gpu.reset.flag 0x1D 0 = false ∧ (vertexAt 0 0).X = 0 ∧ (vertexAt 64 0).X = 64 ∧ (vertexAt 0 64).Y = 64 ∧
    ¬ ((vertexAt 0 0).X = (vertexAt 64 0).X ∧ (vertexAt 0 0).Y = (vertexAt 64 0).Y) := by decide

/-- The GPU at reset with the registers `rs` as given. -/
def gpuWith (rs : List (Fin 256 × BitVec 24)) : State :=
  { State.reset with gpu := { Gpu.reset with reg := rs.foldl (fun v e => v.set e.1 e.2) Gpu.reset.reg } }

/-- A fragment at the pixel (0, 0). -/
def someFragment : Fragment := { px := 0, py := 0, z := 0, c := ⟨10, 20, 30, 40⟩, S := 0, T := 0, place := 0 }

/-- The clauses of `DiscardedFragmentWritesNothing`: at reset the scissor rectangle and the depth range are one point; under LESS a
depth of 0 does not pass a stored 0; under NOT EQUAL an alpha does not pass its own value. -/
theorem test_witness_DiscardedFragmentWritesNothing :
    (gpuWith []).gpu.field 0xD5 0 10 < 1 ∧ (gpuWith []).gpu.flag 0xD3 0 = false ∧ ((gpuWith []).gpu.field 0xD7 0 16 : Int) < 1 ∧
    (let s := gpuWith [(0x23, 1#24), (0xDE, 4#24)];
      s.gpu.flag 0xD3 0 = false ∧ s.gpu.flag 0x23 0 = true ∧ s.gpu.depthRange false 0 = some 0 ∧
        ¬ comparePasses (s.gpu.field 0xDE 0 3) 0 (geHalf s.par s.mem (s.gpu.depthAddr 0 0)).toNat) ∧
    (let s := gpuWith [(0x22, 1#24), (0xDB, 0xFF2803#24)];
      s.gpu.flag 0xD3 0 = false ∧ s.gpu.flag 0x22 0 = true ∧
        ¬ comparePasses (s.gpu.field 0xDB 0 3)
          ((s.gpu.textured s.par [] someFragment).a &&& s.gpu.field 0xDB 16 8 : ℕ)
          (s.gpu.field 0xDB 8 8 &&& s.gpu.field 0xDB 16 8 : ℕ)) := by
  refine ⟨by decide, by decide, by decide, ⟨by decide, by decide, by decide, ?_⟩, by decide, by decide, ?_⟩
  · have h : (gpuWith [(0x23, 1#24), (0xDE, 4#24)]).gpu.field 0xDE 0 3 = 4 := by decide
    have h' : (geHalf (gpuWith [(0x23, 1#24), (0xDE, 4#24)]).par (gpuWith [(0x23, 1#24), (0xDE, 4#24)]).mem
        ((gpuWith [(0x23, 1#24), (0xDE, 4#24)]).gpu.depthAddr 0 0)) = 0#16 := by decide
    rw [h, h']; simp [comparePasses]
  · have h : (gpuWith [(0x22, 1#24), (0xDB, 0xFF2803#24)]).gpu.field 0xDB 0 3 = 3 := by decide
    have h1 : (gpuWith [(0x22, 1#24), (0xDB, 0xFF2803#24)]).gpu.field 0xDB 8 8 = 40 := by decide
    have h2 : (gpuWith [(0x22, 1#24), (0xDB, 0xFF2803#24)]).gpu.textured
        (gpuWith [(0x22, 1#24), (0xDB, 0xFF2803#24)]).par [] someFragment = ⟨10, 20, 30, 40⟩ := by decide
    rw [h, h1, h2]; simp [comparePasses]

/-- `FragmentWrites`: a 5650 pixel at the start of VRAM and its depth after it, without a depth write, with one, and in clear
mode. -/
theorem test_witness_FragmentWrites :
    someFragment.c.inRange ∧
    ∀ rs ∈ [[(0x9E, 0x10#24)], [(0x9E, 0x10#24), (0x23, 1#24), (0xDE, 1#24)], [(0x9E, 0x10#24), (0xD3, 0x701#24)]],
      let s := gpuWith rs
      s.memWf = true ∧ s.gpu.inScissor 0 0 = true ∧ s.gpu.fbFmt = 0 ∧ s.gpu.depthRange false 0 = some 0 ∧
      s.gpu.depthTest s.par s.mem 0 0 0 = true ∧ s.gpu.alphaTest (s.gpu.textured s.par [] someFragment).a = true ∧
      (∀ k : Fin 2, translate s.par (s.gpu.pixelAddr 0 0 + BitVec.ofNat 32 k.val) = some (0x04000000 + k.val)) ∧
      (∀ k : Fin 2, translate s.par (s.gpu.depthAddr 0 0 + BitVec.ofNat 32 k.val) = some (0x04000010 + k.val)) := by
  refine ⟨by unfold Rgba.inRange; decide, by decide⟩

/-- R396 and R397: (10, 20, 30) in 5650 by truncation; in clear mode the depth goes after it, and in
through mode one above 16 bits is clamped (D64 of spec/92_eei_decisions.md). -/
theorem test_fragment :
    (Memory.readList ((gpuWith []).shade { through := true, snapshot := [] } someFragment).mem 0x04000000 2 =
      [0xA1#8, 0x18#8]) ∧
    (Memory.readList ((gpuWith [(0x9E, 0x10#24), (0xD3, 0x401#24)]).shade { through := true, snapshot := [] }
      { someFragment with z := 0x1234 }).mem 0x04000010 2 = [0x34#8, 0x12#8]) ∧
    (Memory.readList ((gpuWith [(0x9E, 0x10#24), (0xD3, 0x401#24)]).shade { through := true, snapshot := [] }
      { someFragment with z := 0x12345 }).mem 0x04000010 2 = [0xFF#8, 0xFF#8]) := by decide

/-- The premises of `TextureFunctionAndBlend`: texturing and blending on, each function, equation and factor code. -/
theorem test_witness_TextureFunctionAndBlend :
    (gpuWith []).gpu.flag 0x1E 0 = false ∧ (gpuWith []).gpu.flag 0x21 0 = false ∧
    (gpuWith [(0x1E, 1#24), (0x21, 1#24)]).gpu.flag 0x1E 0 = true ∧
    (gpuWith [(0x1E, 1#24), (0x21, 1#24)]).gpu.flag 0x21 0 = true ∧
    (∀ n : Fin 8, (gpuWith [(0xC9, BitVec.ofNat 24 n.val)]).gpu.field 0xC9 0 3 = n.val) ∧
    (∀ n : Fin 8, (gpuWith [(0xDF, BitVec.ofNat 24 (256 * n.val))]).gpu.field 0xDF 8 3 = n.val) ∧
    (gpuWith [(0xDF, 0x0F#24)]).gpu.field 0xDF 0 4 = 15 ∧ (gpuWith [(0xDF, 0xF0#24)]).gpu.field 0xDF 4 4 = 15 := by
  and_intros <;> decide

/-- R393 and R395 by hand: modulate 200 by 100, decal at half alpha, and the equations at 200 and 100 with factors of 255. -/
theorem test_texture_and_blend :
    texFuncColour 0 true 200 100 0 0 = 78 ∧ texFuncColour 1 true 200 100 0 128 = 150 ∧ texFuncColour 4 true 200 100 0 0 = 255 ∧
    blendEquation 0 200 100 255 255 = 255 ∧ blendEquation 1 200 100 255 255 = 100 ∧ blendEquation 2 200 100 255 255 = 0 ∧
    blendEquation 5 100 200 255 255 = 100 := by decide

/-- `ChannelsStayInRange`: colours of full channels, and the two orders of a DXT block's colours. -/
theorem test_witness_ChannelsStayInRange :
    Rgba.inRange ⟨255, 255, 255, 255⟩ ∧ (0#16 : BitVec 16).toNat < (1#16).toNat ∧ (1#16 : BitVec 16).toNat ≤ (1#16).toNat := by
  unfold Rgba.inRange
  decide

/-- A script runs the display lists where its ListEnqueue stands and then goes on with its other operations (R355, R356): the
phases `geLists` and `script`, and the end, where the CPU stands as when the event fired (R292). -/
theorem test_script_runs_lists :
    let f : HostScript :=
      { ops := [.call .geListEnqueue [0x08800000#32, 0x08800000#32], .result 7#32], v0 := none, v1 := none, resched := none
        origin := .event .running }
    let rest := { f with ops := [.result 7#32] }
    ((State.reset.runScript f).map fun t => (t.run, t.gpu.queue)) = .ok (.inHost (.geLists (some rest)), [0]) ∧
    ((State.reset.geStep (some rest)).run = .inHost (.script { rest with resched := some false })) ∧
    ((State.reset.scriptStep rest).run = .running) := by
  refine ⟨?_, ?_, ?_⟩ <;> rfl

end Sys2Proof.Tests
end

section
/-! SUPPORT. What one instruction does, said once: every instruction acts as one of the model's shared operations
(`Effect`), with operands that no vector register gives (`exec_hasEffect`). The frame of whatever `exec` answers
(`exec_frame`) and the vector unit's noninterference (`exec_withVector`) follow. -/

namespace Sys2Proof.Machine

/-! ## The vector unit under the state's operations -/

section
variable (s : State) (v : Vector Word 128) (p : Vpfx)

@[simp] theorem State.withVector_par : (s.withVector v p).par = s.par := rfl
@[simp] theorem State.withVector_advance : (s.withVector v p).advance = s.advance.withVector v p := rfl
@[simp] theorem State.withVector_drew (n : Nat) : (s.withVector v p).drew n = (s.drew n).withVector v p := rfl
@[simp] theorem State.withVector_setX (r : Reg) (x : Word) :
    (s.withVector v p).setX r x = (s.setX r x).withVector v p := by
  by_cases hr : r = 0#5
  · subst hr; rfl
  · simp [State.setX, Context.setX, State.withVector, hr]
@[simp] theorem State.withVector_branchIf (c : Bool) (t : Word) :
    (s.withVector v p).branchIf c t = (s.branchIf c t).withVector v p := by cases c <;> rfl
@[simp] theorem State.withVector_branchLikelyIf (c : Bool) (t : Word) :
    (s.withVector v p).branchLikelyIf c t = (s.branchLikelyIf c t).withVector v p := by cases c <;> rfl

/-- An overflow check answers the same with another vector unit. -/
theorem State.withVector_writeChecked (ovf : Bool) (r : Reg) (x : Word) {t : State} (h : s.writeChecked ovf r x = .next t) :
    (s.withVector v p).writeChecked ovf r x = .next (t.withVector v p) := by
  unfold State.writeChecked at h ⊢
  split at h <;> rename_i hc
  · cases h; exact if_pos hc
  · cases h
    rw [State.withVector_par, if_neg hc, State.withVector_advance, State.withVector_setX]

/-- A control transfer answers the same with another vector unit. -/
theorem State.withVector_controlTransfer (u : State) {t : State} (h : s.controlTransfer u = .next t) :
    (s.withVector v p).controlTransfer (u.withVector v p) = .next (t.withVector v p) := by
  unfold State.controlTransfer at h ⊢
  split at h <;> rename_i hc <;> cases h
  · exact if_pos hc
  · exact if_neg hc

end

/-! ## Effects -/

/-- The link of a control transfer, if it has one, after the pc advance (R192). -/
def State.linked (s : State) (link : Option Reg) : State :=
  match link with
  | none => s.advance
  | some r => s.advance.setX r s.link

@[simp] theorem State.withVector_linked (s : State) (v : Vector Word 128) (p : Vpfx) (link : Option Reg) :
    (s.withVector v p).linked link = (s.linked link).withVector v p := by
  cases link with
  | none => rfl
  | some r => exact State.withVector_setX s.advance v p r s.link

/-- The shapes of an instruction's effect, with the operands it has read. -/
inductive Effect where
  | advance
  | writeReg (r : Reg) (x : Word) (drawn : Nat)
  | writeChecked (ovf : Bool) (r : Reg) (x : Word)
  | writeFpr (r : FReg) (x : Word) (drawn : Nat)
  | writeHiLo (h l : Word)
  | writeFcr31 (x : Word)
  | store (pa : Nat) (bs : List Byte)
  | branch (link : Option Reg) (c : Bool) (target : Word)
  | branchLikely (link : Option Reg) (c : Bool) (target : Word)
  | stop (r : RunStatus)
  | refuse (g : RefusedGroup) (w : Word)

/-- What an effect makes of a state, in the operations of the model. -/
def Effect.apply (e : Effect) (s : State) : Out :=
  match e with
  | .advance => .next s.advance
  | .writeReg r x n => .next ((s.advance.setX r x).drew n)
  | .writeChecked ovf r x => s.writeChecked ovf r x
  | .writeFpr r x n => .next ((s.advance.setF r x).drew n)
  | .writeHiLo h l => .next (s.advance.setHiLo h l)
  | .writeFcr31 x => .next (s.advance.setFcr31 x)
  | .store pa bs => .next (s.storeBytes pa bs).advance
  | .branch link c t => s.controlTransfer ((s.linked link).branchIf c t)
  | .branchLikely link c t => s.controlTransfer ((s.linked link).branchLikelyIf c t)
  | .stop r => .next { s.advance with run := r }
  | .refuse g w => s.refuse g w

/-- The instructions that may have the effect: HI and LO, FCR31, memory and control each have their class. -/
def Effect.permitted (e : Effect) (i : Instr) : Bool :=
  match e with
  | .writeHiLo _ _ => mayWriteHiLo i
  | .writeFcr31 _ => mayWriteFcr31 i
  | .store _ _ => mayStore i
  | .branch _ _ _ => transfersControl i
  | .branchLikely _ _ _ => transfersControl i
  | _ => true

/-- An effect reads nothing of the vector unit and carries it through (R35, R36). -/
theorem Effect.apply_withVector (e : Effect) (s t : State) (v : Vector Word 128) (p : Vpfx) (h : e.apply s = .next t) :
    e.apply (s.withVector v p) = .next (t.withVector v p) := by
  cases e with
  | writeChecked ovf r x => exact State.withVector_writeChecked s v p ovf r x h
  | branch link c a =>
    have ht := State.withVector_controlTransfer s v p _ h
    rwa [← State.withVector_branchIf, ← State.withVector_linked] at ht
  | branchLikely link c a =>
    have ht := State.withVector_controlTransfer s v p _ h
    rwa [← State.withVector_branchLikelyIf, ← State.withVector_linked] at ht
  | writeReg r x n => cases h; simp [Effect.apply]
  | advance | writeFpr | writeHiLo | writeFcr31 | store | stop => cases h; rfl
  | refuse g w => cases h

/-! ## Every instruction has an effect -/

/-- Instruction `i` acts on `s`, and on `s` with any other vector unit, as `f` does. -/
structure ActsAs (i : Instr) (s : State) (f : State → Out) : Prop where
  self : exec i s = f s
  withVector : ∀ v p, exec i (s.withVector v p) = f (s.withVector v p)

/-- Instruction `i` acts on `s` as one of the effects it may have, whatever the vector unit holds. -/
def HasEffect (i : Instr) (s : State) : Prop := ∃ e : Effect, e.permitted i = true ∧ ActsAs i s e.apply

section
variable {i : Instr} {s : State}

/-- Two functions of a state that agree on `s` and its vector variants. -/
theorem ActsAs.congr {f g : State → Out} (h : ActsAs i s f) (hs : f s = g s)
    (hv : ∀ v p, f (s.withVector v p) = g (s.withVector v p)) : ActsAs i s g :=
  ⟨h.self.trans hs, fun v p => (h.withVector v p).trans (hv v p)⟩

/-- A memory access: the instruction halts where `r` is a halt, and has an effect for every value of `r` (R62, R284). -/
theorem hasEffect_of_orHalt {α : Type} (r : Except HaltReason α) (k : α → State → State)
    (h : ActsAs i s fun u => u.orHalt r fun a => k a u)
    (hk : ∀ a, ∃ e : Effect, e.permitted i = true ∧ ∀ u, e.apply u = .next (k a u)) : HasEffect i s := by
  cases r with
  | error x => exact ⟨.stop (.halted x), rfl, h.congr rfl fun _ _ => rfl⟩
  | ok a =>
    obtain ⟨e, hp, he⟩ := hk a
    exact ⟨e, hp, h.congr (he s).symm fun v p => (he (s.withVector v p)).symm⟩

/-- A load writes a general register with what it makes of the value read, or halts. -/
theorem hasEffect_of_load {α : Type} (r : Except HaltReason α) (rt : Reg) (f : α → Word)
    (h : ActsAs i s fun u => u.orHalt r fun a => u.advance.setX rt (f a)) : HasEffect i s :=
  hasEffect_of_orHalt r (fun a u => u.advance.setX rt (f a)) h fun a => ⟨.writeReg rt (f a) 0, rfl, fun _ => rfl⟩

/-- A store writes its bytes at the address that the check answers, or halts. -/
theorem hasEffect_of_store (r : Except HaltReason Nat) (f : Nat → Nat) (g : Nat → List Byte) (hi : mayStore i = true)
    (h : ActsAs i s fun u => u.orHalt r fun pa => (u.storeBytes (f pa) (g pa)).advance) : HasEffect i s :=
  hasEffect_of_orHalt r (fun pa u => (u.storeBytes (f pa) (g pa)).advance) h fun pa =>
    ⟨.store (f pa) (g pa), hi, fun _ => rfl⟩

/-- A checked store is an address check and a store of all its bytes (R62). -/
theorem State.orHalt_storeChecked (u : State) (a : Word) (bs : List Byte) :
    u.orHalt (u.storeChecked a bs) (fun t => t.advance) =
      u.orHalt (dataAddress u.par a bs.length) fun pa => (u.storeBytes pa bs).advance := by
  unfold State.storeChecked
  cases dataAddress u.par a bs.length <;> rfl

/-- A checked store has the effect of storing, or halts. -/
theorem hasEffect_of_storeChecked {a : Word} {bs : List Byte} (hi : mayStore i = true)
    (h : ActsAs i s fun u => u.orHalt (u.storeChecked a bs) fun t => t.advance) : HasEffect i s :=
  hasEffect_of_store (dataAddress s.par a bs.length) id (fun _ => bs) hi
    (h.congr (State.orHalt_storeChecked s a bs) fun v p => State.orHalt_storeChecked (s.withVector v p) a bs)

/-- The result of an FPU operation is one write of fd, with a draw or none; the parameters and the draws fix it (R215). -/
theorem State.writeFp_eq (s : State) (op : Nat) (fd : FReg) (a b : Word) (r : Option Word) :
    ∃ x n, ∀ u : State, u.par = s.par → u.draws = s.draws → u.writeFp op fd a b r = (u.advance.setF fd x).drew n := by
  unfold State.writeFp
  cases ha : s.par.fpArith with
  | other => exact ⟨fpFlush s.par.fpFtz (Config.fpArith op a b), 0, fun u hp _ => by rw [hp, ha]; rfl⟩
  | ieeeNearestEven =>
    cases r with
    | some x => exact ⟨x, 0, fun u hp _ => by rw [hp, ha]; rfl⟩
    | none => exact ⟨fpNan (Config.draw s.draws), 1, fun u hp hd => by rw [hp, ha, hd]⟩

/-- An instruction of `FP_ARITH` writes an FPU register. -/
theorem hasEffect_of_writeFp {op : Nat} {fd : FReg} {a b : Word} {r : Option Word}
    (h : ActsAs i s fun u => .next (u.writeFp op fd a b r)) : HasEffect i s := by
  obtain ⟨x, n, hx⟩ := State.writeFp_eq s op fd a b r
  exact ⟨.writeFpr fd x n, rfl,
    h.congr (congrArg Host.Outcome.next (hx s rfl rfl)) fun v p => congrArg Host.Outcome.next (hx _ rfl rfl)⟩

end

/-- Every instruction acts as an effect that its class permits, whatever the vector unit holds. -/
theorem exec_hasEffect (i : Instr) (s : State) : HasEffect i s := by
  cases i
  case sll | srl | rotr | sra | sllv | srlv | rotrv | srav | clz | clo | addu | subu | and | or | xor | nor | slt | sltu | max
      | min | wsbh | wsbw | seb | bitrev | seh | addiu | slti | sltiu | andi | ori | xori | lui | mfhi | mflo | mfc1 =>
    exact ⟨.writeReg _ _ 0, rfl, rfl, fun _ _ => rfl⟩
  case add | sub | addi => exact ⟨.writeChecked _ _ _, rfl, rfl, fun _ _ => rfl⟩
  case movz rd rs rt =>
    by_cases hc : s.x rt = 0#32
    · exact ⟨.writeReg rd (s.x rs) 0, rfl, congrArg _ (if_pos hc), fun _ _ => congrArg _ (if_pos hc)⟩
    · exact ⟨.advance, rfl, congrArg _ (if_neg hc), fun _ _ => congrArg _ (if_neg hc)⟩
  case movn rd rs rt =>
    by_cases hc : s.x rt ≠ 0#32
    · exact ⟨.writeReg rd (s.x rs) 0, rfl, congrArg _ (if_pos hc), fun _ _ => congrArg _ (if_pos hc)⟩
    · exact ⟨.advance, rfl, congrArg _ (if_neg hc), fun _ _ => congrArg _ (if_neg hc)⟩
  case ext rt rs pos size =>
    by_cases hc : 32 < pos.toNat + size
    · exact ⟨.stop _, rfl, if_pos hc, fun _ _ => if_pos hc⟩
    · exact ⟨.writeReg rt _ 0, rfl, if_neg hc, fun _ _ => if_neg hc⟩
  case ins rt rs pos msb =>
    by_cases hc : msb.toNat < pos.toNat
    · exact ⟨.stop _, rfl, if_pos hc, fun _ _ => if_pos hc⟩
    · exact ⟨.writeReg rt _ 0, rfl, if_neg hc, fun _ _ => if_neg hc⟩
  case mthi | mtlo | mult | multu | madd | maddu | msub | msubu | div | divu =>
    exact ⟨.writeHiLo _ _, rfl, rfl, fun _ _ => rfl⟩
  case lb rt base offset =>
    exact hasEffect_of_load (s.loadByte (s.ea base offset)) rt (fun v => v.signExtend 32) ⟨rfl, fun _ _ => rfl⟩
  case lh rt base offset =>
    exact hasEffect_of_load (s.loadHalf (s.ea base offset)) rt (fun v => v.signExtend 32) ⟨rfl, fun _ _ => rfl⟩
  case lw rt base offset =>
    exact hasEffect_of_load (s.loadWord (s.ea base offset)) rt (fun v => v) ⟨rfl, fun _ _ => rfl⟩
  case lbu rt base offset =>
    exact hasEffect_of_load (s.loadByte (s.ea base offset)) rt (fun v => v.setWidth 32) ⟨rfl, fun _ _ => rfl⟩
  case lhu rt base offset =>
    exact hasEffect_of_load (s.loadHalf (s.ea base offset)) rt (fun v => v.setWidth 32) ⟨rfl, fun _ _ => rfl⟩
  case lwl rt base offset =>
    exact hasEffect_of_load (s.loadWord (alignDown4 (s.ea base offset))) rt
      (fun v => mergeLeft (s.x rt) v (byteLane (s.ea base offset))) ⟨rfl, fun _ _ => rfl⟩
  case lwr rt base offset =>
    exact hasEffect_of_load (s.loadWord (alignDown4 (s.ea base offset))) rt
      (fun v => mergeRight (s.x rt) v (byteLane (s.ea base offset))) ⟨rfl, fun _ _ => rfl⟩
  case lwc1 ft base offset =>
    exact hasEffect_of_orHalt (s.loadWord (s.ea base offset)) (fun v u => u.advance.setF ft v) ⟨rfl, fun _ _ => rfl⟩
      fun v => ⟨.writeFpr ft v 0, rfl, fun _ => rfl⟩
  case sb | sh | sw | swc1 => exact hasEffect_of_storeChecked rfl ⟨rfl, fun _ _ => rfl⟩
  case swl rt base offset =>
    exact hasEffect_of_store (dataAddress s.par (alignDown4 (s.ea base offset)) 4) id
      (fun pa => swlBytes (Memory.word s.mem pa) (s.x rt) (byteLane (s.ea base offset))) rfl ⟨rfl, fun _ _ => rfl⟩
  case swr rt base offset =>
    exact hasEffect_of_store (dataAddress s.par (alignDown4 (s.ea base offset)) 4) (· + byteLane (s.ea base offset))
      (fun pa => swrBytes (Memory.word s.mem pa) (s.x rt) (byteLane (s.ea base offset))) rfl ⟨rfl, fun _ _ => rfl⟩
  case cache | sync => exact ⟨.advance, rfl, rfl, fun _ _ => rfl⟩
  case beq | bne | blez | bgtz | bltz | bgez | bc1f | bc1t => exact ⟨.branch none _ _, rfl, rfl, fun _ _ => rfl⟩
  case beql | bnel | blezl | bgtzl | bltzl | bgezl | bc1fl | bc1tl =>
    exact ⟨.branchLikely none _ _, rfl, rfl, fun _ _ => rfl⟩
  case bltzal | bgezal => exact ⟨.branch (some 31#5) _ _, rfl, rfl, fun _ _ => rfl⟩
  case bltzall | bgezall => exact ⟨.branchLikely (some 31#5) _ _, rfl, rfl, fun _ _ => rfl⟩
  case j | jr => exact ⟨.branch none true _, rfl, rfl, fun _ _ => rfl⟩
  case jal => exact ⟨.branch (some 31#5) true _, rfl, rfl, fun _ _ => rfl⟩
  case jalr rd rs => exact ⟨.branch (some rd) true _, rfl, rfl, fun _ _ => rfl⟩
  case mtc1 | absS | movS | negS | roundWS | cvtWS | truncWS | ceilWS | floorWS =>
    exact ⟨.writeFpr _ _ 0, rfl, rfl, fun _ _ => rfl⟩
  case cfc1 rt fs =>
    by_cases h31 : fs = 31#5
    · exact ⟨.writeReg rt _ 1, rfl, if_pos h31, fun _ _ => if_pos h31⟩
    · by_cases h0 : fs = 0#5
      · subst h0; exact ⟨.writeReg rt _ 0, rfl, rfl, fun _ _ => rfl⟩
      · exact ⟨.stop _, rfl, (if_neg h31).trans (if_neg h0), fun _ _ => (if_neg h31).trans (if_neg h0)⟩
  case ctc1 rt fs =>
    by_cases h31 : fs = 31#5
    · exact ⟨.writeFcr31 _, rfl, if_pos h31, fun _ _ => if_pos h31⟩
    · exact ⟨.stop _, rfl, if_neg h31, fun _ _ => if_neg h31⟩
  case addS | subS | mulS | divS | sqrtS | cvtSW => exact hasEffect_of_writeFp ⟨rfl, fun _ _ => rfl⟩
  case cF | cUn | cEq | cUeq | cOlt | cUlt | cOle | cUle | cSf | cNgle | cSeq | cNgl | cLt | cNge | cLe | cNgt =>
    exact ⟨.writeFcr31 _, rfl, rfl, fun _ _ => rfl⟩
  case syscall | brk => exact ⟨.stop _, rfl, rfl, fun _ _ => rfl⟩
  case cop0 | cop2 | special2 | vfpu0 | vfpu1 | vfpu3 | lvS | vfpu4 | lvlrQ | lvQ | vfpu5 | svS | vfpu6 | svlrQ | svQ | vfpu7
      | ll | sc => exact ⟨.refuse _ _, rfl, rfl, fun _ _ => rfl⟩

/-! ## The frame of whatever an instruction answers -/

/-- What instruction `i` has changed from `s` to `t`: one of the frames of Sys2Proof/Safety.lean, with the class that names the
instructions that may have it. A store is given by its operation, as memory need not be in canonical form here. -/
inductive Frame (i : Instr) (s t : State) : Prop where
  | reg {r : Reg} {x : Word} (h : WritesReg s t r x)
  | fpr {r : FReg} {x : Word} (h : WritesFpr s t r x)
  | hiLo {x y : Word} (hi : mayWriteHiLo i = true) (h : WritesHiLo s t x y)
  | fcr31 {x : Word} (hi : mayWriteFcr31 i = true) (h : WritesFcr31 s t x)
  | store {pa : Nat} {bs : List Byte} (hi : mayStore i = true) (h : t = (s.storeBytes pa bs).advance)
  | transfer {link : Option Reg} {pc nextPc : Word} {ds : Bool} (hi : transfersControl i = true)
      (h : Transfers s t link pc nextPc ds)
  | stop {r : RunStatus} (h : StopsAs s t r)

/-- The frame of a branch's end after its link, if it has one. -/
theorem transfers_linked_branchIf (s : State) (link : Option Reg) (c : Bool) (a : Word) :
    Transfers s ((s.linked link).branchIf c a) link s.cpu.nextPc (if c then a else s.cpu.nextPc + 4#32) true := by
  cases link with
  | none => exact transfers_branchIf s c a
  | some r => exact transfers_link_branchIf s r c a

/-- The frame of a likely branch's end after its link: a branch, or a skipped delay slot (R194). -/
theorem transfers_linked_branchLikelyIf (s : State) (link : Option Reg) (c : Bool) (a : Word) :
    ∃ pc nextPc ds, Transfers s ((s.linked link).branchLikelyIf c a) link pc nextPc ds := by
  cases c with
  | true => exact ⟨_, _, _, transfers_linked_branchIf s link true a⟩
  | false =>
    cases link with
    | none => exact ⟨_, _, _, transfers_skipDelaySlot s⟩
    | some r => exact ⟨_, _, _, transfers_link_skipDelaySlot s r⟩

/-- A control transfer halts in a delay slot, and has its own frame outside one (R190). -/
theorem frame_of_controlTransfer {i : Instr} {s u t : State} {link : Option Reg} {pc nextPc : Word} {ds : Bool}
    (hi : transfersControl i = true) (hu : Transfers s u link pc nextPc ds) (h : s.controlTransfer u = .next t) :
    Frame i s t := by
  obtain ⟨-, ht⟩ | ⟨-, ht⟩ := State.controlTransfer_cases s u <;> cases ht.symm.trans h
  · exact .stop (halts_halted s _)
  · exact .transfer hi hu

/-- Each effect has one of the frames. -/
theorem Effect.frame {e : Effect} {i : Instr} {s t : State} (hp : e.permitted i = true) (h : e.apply s = .next t) :
    Frame i s t := by
  cases e with
  | advance => cases h; exact .reg (writesReg_advance s 0#5)
  | writeReg r x n => cases h; exact .reg (writesReg_setX s r x n)
  | writeChecked ovf r x =>
    obtain ⟨-, -, ht⟩ | ⟨-, ht⟩ := State.writeChecked_cases s ovf r x <;> cases ht.symm.trans h
    · exact .stop (halts_halted s _)
    · exact .reg (writesReg_advance_setX s r x)
  | writeFpr r x n => cases h; exact .fpr (writesFpr_setF s r x n)
  | writeHiLo hi lo => cases h; exact .hiLo hp (writesHiLo_setHiLo s hi lo)
  | writeFcr31 x => cases h; exact .fcr31 hp (writesFcr31_setFcr31 s x)
  | store pa bs => cases h; exact .store hp rfl
  | branch link c a => exact frame_of_controlTransfer hp (transfers_linked_branchIf s link c a) h
  | branchLikely link c a =>
    obtain ⟨pc, nextPc, ds, hu⟩ := transfers_linked_branchLikelyIf s link c a
    exact frame_of_controlTransfer hp hu h
  | stop r => cases h; exact .stop (stopsAs_advance s r)
  | refuse g w => cases h

/-- Whatever an instruction answers has one of the frames that its classes permit. -/
theorem exec_frame {i : Instr} {s t : State} (h : exec i s = .next t) : Frame i s t := by
  obtain ⟨e, hp, ha⟩ := exec_hasEffect i s
  exact e.frame hp (ha.self.symm.trans h)

/-- With another vector unit an instruction answers the same and carries that vector unit through. -/
theorem exec_withVector {i : Instr} {s t : State} (v : Vector Word 128) (p : Vpfx) (h : exec i s = .next t) :
    exec i (s.withVector v p) = .next (t.withVector v p) := by
  obtain ⟨e, -, ha⟩ := exec_hasEffect i s
  exact (ha.withVector v p).trans (e.apply_withVector s t v p (ha.self.symm.trans h))

namespace Frame

variable {i : Instr} {s t : State}

/-- No instruction touches the parameters, time, the kernel, the loader's hand-off or the vector unit. -/
theorem agents (f : Frame i s t) : SameAgents s t := by
  cases f with
  | reg h => exact h.agents
  | fpr h => exact h.agents
  | hiLo _ h => exact h.agents
  | fcr31 _ h => exact h.agents
  | store _ h => subst h; exact ⟨rfl, rfl, rfl, rfl, rfl, rfl⟩
  | transfer _ h => exact h.agents
  | stop h => exact h.agents

/-- HI and LO stay outside their class (R23). -/
theorem hiLo_eq (f : Frame i s t) (hi : mayWriteHiLo i = false) : t.cpu.hi = s.cpu.hi ∧ t.cpu.lo = s.cpu.lo := by
  cases f with
  | reg h => exact ⟨h.hi, h.lo⟩
  | fpr h => exact ⟨h.integer.hi, h.integer.lo⟩
  | hiLo hw _ => exact absurd (hw.symm.trans hi) (by decide)
  | fcr31 _ h => exact ⟨h.integer.hi, h.integer.lo⟩
  | store _ h => subst h; exact ⟨rfl, rfl⟩
  | transfer _ h => exact ⟨h.hi, h.lo⟩
  | stop h => exact ⟨h.integer.hi, h.integer.lo⟩

/-- FCR31 stays outside its class (R31). -/
theorem fcr31_eq (f : Frame i s t) (hi : mayWriteFcr31 i = false) : t.cpu.fcr31 = s.cpu.fcr31 := by
  cases f with
  | reg h => exact h.fpu.fcr31
  | fpr h => exact h.fcr31
  | hiLo _ h => exact h.fpu.fcr31
  | fcr31 hw _ => exact absurd (hw.symm.trans hi) (by decide)
  | store _ h => subst h; rfl
  | transfer _ h => exact h.fpu.fcr31
  | stop h => exact h.fpu.fcr31

/-- Memory and the GPU stay outside the stores (R64). -/
theorem memory (f : Frame i s t) (hi : mayStore i = false) : SameMemory s t := by
  cases f with
  | reg h => exact h.memory
  | fpr h => exact h.memory
  | hiLo _ h => exact h.memory
  | fcr31 _ h => exact h.memory
  | store hw _ => exact absurd (hw.symm.trans hi) (by decide)
  | transfer _ h => exact h.memory
  | stop h => exact h.memory

/-- The pc pair advances by one instruction outside the control transfers (R25). -/
theorem advanced (f : Frame i s t) (hi : transfersControl i = false) : Advanced s t := by
  cases f with
  | reg h => exact h.advanced
  | fpr h => exact h.advanced
  | hiLo _ h => exact h.advanced
  | fcr31 _ h => exact h.advanced
  | store _ h => subst h; exact ⟨rfl, rfl, rfl⟩
  | transfer hw _ => exact absurd (hw.symm.trans hi) (by decide)
  | stop h => exact h.advanced

end Frame

/-! ## The machine at creation -/

/-- The scheduler's invariant holds of a kernel with no object and an empty ready queue. -/
theorem SchedWf.of_empty {k : Kernel} (ho : k.objects = []) (hr : ∀ p : Fin 128, k.ready[p] = []) : SchedWf k := by
  have hnone : ∀ u, k.thread? u = none := fun u => by simp [Kernel.thread?, Kernel.lookup, ho]
  exact
    { ready := fun u p => by simp [hr, hnone]
      once := fun p => by simp [hr]
      run := fun u t ht => by simp [hnone] at ht }

theorem Kernel.reset_ready (p : Fin 128) : Kernel.reset.ready[p] = [] := Vector.getElem_replicate p.isLt

/-! ## A step of the running CPU -/

/-- With nothing due and nothing requested, a running CPU takes a CPU step (R25, R298). -/
theorem step_of_running {s : State} (hrun : s.run = .running) (hdue : s.dueEvent = none)
    (hreq : s.kernel.reschedRequested = false) : step s = s.cpuStep := by
  simp [step, State.runStep, hrun, hdue, hreq]

/-- A CPU step off the callback return address, of a word that decodes, is its instruction and the end of the step (R25). -/
theorem State.cpuStep_of_decode {s : State} {w : Word} {i : Instr} (hpc : s.cpu.pc ≠ s.par.callbackReturnAddr)
    (hw : s.fetch s.cpu.pc = .ok w) (hi : decode w = .ok i) : s.cpuStep = finishOutcome (exec i s) := by
  simp [State.cpuStep, hpc, hw, hi]

/-! ## The obligations -/

/-- Settles O33: from the frame of whatever `exec` answers, class by class. -/
theorem onlyNamedInstructionsWrite : Obligations.OnlyNamedInstructionsWrite := by
  intro i s t h
  have f := exec_frame h
  have ha := f.agents
  exact ⟨f.hiLo_eq, f.fcr31_eq, fun hi => ⟨(f.memory hi).byte, (f.memory hi).gpu⟩, ha.kernel, ha.par, ha.cycles⟩

/-- Settles O34: no frame names the vector unit, and no effect depends on it. -/
theorem vectorUnitNotReached : Obligations.VectorUnitNotReached := by
  intro i s t v p h
  have ha := (exec_frame h).agents
  exact ⟨ha.vpr, ha.vpfx, exec_withVector v p h⟩

/-- Settles O35: every frame but a control transfer's has the pc advance. -/
theorem straightLinePc : Obligations.StraightLinePc := by
  intro i s t hi h
  have ha := (exec_frame h).advanced hi
  refine ⟨ha, fun hseq => ⟨ha.pc.trans hseq, ?_⟩⟩
  calc t.cpu.nextPc = s.cpu.nextPc + 4#32 := ha.nextPc
    _ = s.cpu.pc + 8#32 := by rw [hseq]; bv_omega

/-- Settles O4: the step reaches `finishOutcome`, whose cases are those of the statement. -/
theorem stepRunsDecoded : Obligations.StepRunsDecoded := by
  intro s w i hrun hdue hreq hpc hw hi
  rw [step_of_running hrun hdue hreq, State.cpuStep_of_decode hpc hw hi]
  cases exec i s <;> rfl

/-- Settles O25: both instructions halt on every register number but those that R34 keeps. -/
theorem unsupportedFcrHalts : Obligations.UnsupportedFcrHalts := by
  intro s rt fs
  constructor
  · intro h0 h31
    exact ⟨s.halted (.unsupportedFcr fs), (if_neg h31).trans (if_neg h0), halts_halted s _⟩
  · intro h31
    exact ⟨s.halted (.unsupportedFcr fs), if_neg h31, halts_halted s _⟩

/-- Settles O39: each field as `State.reset` gives it, and the invariant of an empty kernel. -/
theorem resetState : Obligations.ResetState :=
  ⟨rfl, rfl, rfl, State.x_zero_reg _, rfl, rfl, rfl, Kernel.reset_ready, rfl, fun n => Vector.getElem_replicate n.isLt,
    fun n => Vector.getElem_replicate n.isLt, rfl, rfl, rfl, SchedWf.of_empty rfl Kernel.reset_ready⟩

end Sys2Proof.Machine
end

section
/-! SUPPORT. No step takes away what `Kept` names: every effect of an instruction, the boot, and each branch of `step`. The host
actions and the GPU's commands have their lemmas in Laws/HostKept.lean and Laws/Kept.lean. -/

namespace Sys2Proof.Machine

namespace Kept

variable {s t : State}

/-! ## Instructions -/

theorem linked (s : State) (link : Option Reg) : Kept s (s.linked link) := by
  cases link with
  | none => exact advance s
  | some r => exact (advance s).trans (setX _ r _)

theorem branchIf (s : State) (c : Bool) (a : Word) : Kept s (s.branchIf c a) := by
  rw [State.branchIf_cpu]
  exact setCpu s _

theorem branchLikelyIf (s : State) (c : Bool) (a : Word) : Kept s (s.branchLikelyIf c a) := by
  obtain ⟨-, h⟩ | ⟨-, h⟩ := State.branchLikelyIf_cases s c a <;> rw [h] <;> exact setCpu s _

/-- A control transfer keeps what its end outside a delay slot keeps (R190). -/
theorem of_controlTransfer {u : State} (hu : Kept s u) (h : s.controlTransfer u = .next t) : Kept s t := by
  obtain ⟨-, ht⟩ | ⟨-, ht⟩ := State.controlTransfer_cases s u <;> cases ht.symm.trans h
  · exact halted s _
  · exact hu

theorem of_writeChecked {ovf : Bool} {r : Reg} {x : Word} (h : s.writeChecked ovf r x = .next t) : Kept s t := by
  obtain ⟨-, -, ht⟩ | ⟨-, ht⟩ := State.writeChecked_cases s ovf r x <;> cases ht.symm.trans h
  · exact halted s _
  · exact (advance s).trans (setX _ r x)

/-- Each effect of an instruction is made of operations that keep what a step keeps. -/
theorem of_effect {e : Effect} (h : e.apply s = .next t) : Kept s t := by
  cases e with
  | advance => cases h; exact advance s
  | writeReg r x n => cases h; exact ((advance s).trans (setX _ r x)).trans (drew _ n)
  | writeChecked ovf r x => exact of_writeChecked h
  | writeFpr r x n => cases h; exact ((advance s).trans (setF _ r x)).trans (drew _ n)
  | writeHiLo hi lo => cases h; exact (advance s).trans (setHiLo _ hi lo)
  | writeFcr31 x => cases h; exact (advance s).trans (setCpu _ _)
  | store pa bs => cases h; exact (storeBytes s pa bs).trans (advance _)
  | branch link c a => exact of_controlTransfer ((linked s link).trans (branchIf _ c a)) h
  | branchLikely link c a => exact of_controlTransfer ((linked s link).trans (branchLikelyIf _ c a)) h
  | stop r => cases h; exact (advance s).trans (setRun _ r)
  | refuse g w => cases h

/-- An instruction keeps what a step keeps. -/
theorem of_exec {i : Instr} (h : exec i s = .next t) : Kept s t := by
  obtain ⟨e, -, ha⟩ := exec_hasEffect i s
  exact of_effect (ha.self.symm.trans h)

theorem of_finishOutcome {o : Out} (ho : ∀ u, o = .next u → Kept s u) (h : finishOutcome o = .next t) : Kept s t := by
  cases o with
  | next u => cases h; exact (ho u rfl).trans (finishStep u)
  | fault r => cases h
  | refused r => cases h

/-- A CPU step: the entry to the host at the callback return address, a halt, or an instruction (R25, R284, R290). -/
theorem of_cpuStep (h : s.cpuStep = .next t) : Kept s t := by
  unfold State.cpuStep at h
  split at h
  · split at h <;> cases h
    · exact setRun s _
    · exact halted s _
  · split at h
    · cases h; exact haltHere s _
    · split at h
      · cases h; exact halted s _
      · exact of_finishOutcome (fun _ => of_exec) h

/-- What comes before a CPU step, or the CPU step (R298). -/
theorem of_runStep (h : s.runStep = .next t) : Kept s t := by
  unfold State.runStep at h
  split at h
  · cases h; exact fireEvent s _
  · split at h
    · cases h; exact (SameWorld.reschedule s false).kept
    · exact of_cpuStep h

/-! ## The host, and the machine that does not step -/

theorem hostStep (s : State) (e : HostEvent) : Kept s (s.hostStep e) := by
  cases e with
  | hleCall code => exact orDue s _ (hostCall s code)
  | callbackReturn => exact orDue s _ (SameWorld.callbackReturn s).kept
  | geLists rest => exact geStep s rest
  | script rest => exact scriptStep s rest

theorem advanceTime (s : State) (n : Nat) : Kept s { s with cycles := max s.cycles n } :=
  ⟨rfl, Nat.le_max_left _ _, Nat.le_refl _, fun h => h⟩

theorem idleStep (s : State) : Kept s s.idleStep := by
  unfold State.idleStep
  split
  · exact refl s
  · refine orDue s _ ?_
    split
    · exact (SameWorld.reschedule s false).kept
    · split
      · exact refl s
      · exact advanceTime s _

/-! ## The boot (R404) -/

theorem of_placeSegment {name : String} {g : Segment} (h : s.placeSegment name g = some t) : Kept s t := by
  unfold State.placeSegment at h
  split at h
  · cases h; exact refl s
  · split at h
    · cases h
    · split at h
      · cases h
      · split at h <;> cases h
        · exact haltHere s _
        · exact (withKernel s _).trans (writeGuest _ _ _ _ ‹_›)

theorem of_placeSegments {name : String} : ∀ (gs : List Segment) {s t : State}, s.placeSegments name gs = some t → Kept s t
  | [], s, _, h => by cases h; exact refl s
  | g :: gs, s, t, h => by
    unfold State.placeSegments at h
    split at h
    · cases h; exact refl s
    · split at h
      · cases h
      · exact (of_placeSegment ‹_›).trans (of_placeSegments gs h)

theorem rewriteStub (s : State) (b : Stub) : Kept s (s.rewriteStub b) := by
  unfold State.rewriteStub
  simp only
  split
  · exact (withKernel s _).trans (haltHere _ _)
  · rename_i s1 h1
    have k1 := (withKernel s _).trans (storeChecked _ s1 _ _ h1)
    split
    · exact k1.trans (haltHere s1 _)
    · exact k1.trans (storeChecked s1 _ _ _ ‹_›)

theorem rewriteStubs : ∀ (bs : List Stub) (s : State), Kept s (s.rewriteStubs bs)
  | [], s => refl s
  | b :: bs, s => by
    unfold State.rewriteStubs
    split
    · exact refl s
    · exact (rewriteStub s b).trans (rewriteStubs bs _)

theorem of_startMain {img : LoadImage} (h : s.startMain img = some t) : Kept s t := by
  unfold State.startMain at h
  split at h
  · cases h
  · split at h
    · split at h
      · cases h
      · rename_i uid s1 h1
        have k1 := (setKernel s _).trans (createThread _ s1 _ _ _ _ _ _ _ _ _ h1)
        split at h
        · cases h
        · split at h <;> cases h
          · exact k1.trans (haltHere s1 _)
          · exact (k1.trans (startThread s1 _ _ _ _ _ ‹_›)).trans (SameWorld.reschedule _ false).kept
    · cases h

theorem of_boot {img : LoadImage} (h : s.boot img = some t) : Kept s t := by
  unfold State.boot at h
  split at h
  · cases h
  · rename_i s1 h1
    have k0 : Kept s { s with loader := none, kernel := { s.kernel with imports := img.imports } } :=
      ⟨rfl, Nat.le_refl _, Nat.le_refl _, fun h => h⟩
    have k2 := (k0.trans (of_placeSegments _ h1)).trans (rewriteStubs img.stubs s1)
    simp only at h
    split at h
    · cases h; exact k2
    · exact k2.trans (of_startMain h)

/-! ## The step -/

/-- What every step keeps, by the run status that says what the step does. -/
theorem of_step (h : step s = .next t) : Kept s t := by
  unfold step at h
  split at h
  · cases h
  · cases h
  · cases h; exact hostStep s _
  · exact of_runStep h
  · split at h
    · cases h; exact idleStep s
    · split at h <;> cases h
      exact of_boot ‹_›

end Kept

/-- Settles O36: the canonical form is one of the things every step keeps. -/
theorem memoryStaysCanonical : Obligations.MemoryStaysCanonical := fun _ _ hm h => (Kept.of_step h).mem hm

end Sys2Proof.Machine
end

section
/-! SUPPORT. Data accesses, fetches, loads and stores: which address checks answer and which halt, the bytes of a word and of the
unaligned merges, and what is read back after a store. -/

namespace Sys2Proof.Machine

/-! ## Address arithmetic (R64, R177) -/

theorem byteLane_eq (a : Word) : byteLane a = a.toNat % 4 := by simp [byteLane, BitVec.extractLsb'_toNat]

theorem byteLane_lt (a : Word) : byteLane a < 4 := by rw [byteLane_eq]; omega

/-- An address is a multiple of 4 exactly when its low two bits are 0. -/
theorem extractLsb_two_eq_zero_iff (a : Word) : a.extractLsb' 0 2 = 0#2 ↔ a.toNat % 4 = 0 := by
  rw [← byteLane_eq, byteLane, ← BitVec.toNat_inj]
  rfl

theorem alignDown4_aligned (a : Word) : (alignDown4 a).toNat % 4 = 0 := by
  rw [← extractLsb_two_eq_zero_iff, alignDown4, BitVec.extractLsb'_and]
  exact BitVec.and_zero

/-! ## Checked addresses (R61, R62, R284) -/

theorem dataAddress_misaligned {p : Params} {a : Word} {n : Nat} (h : a.toNat % n ≠ 0) :
    dataAddress p a n = .error (.addressMisaligned a n) := (dataAddress_error p a n _).mpr (.inl ⟨h, rfl⟩)

theorem dataAddress_unmapped {p : Params} {a : Word} {n : Nat} (ha : a.toNat % n = 0) (h : translateRange p a n = none) :
    dataAddress p a n = .error (.addressUnmapped a n) := (dataAddress_error p a n _).mpr (.inr ⟨ha, h, rfl⟩)

/-- The range of an access begins where its first byte is translated. -/
theorem translate_of_translateRange {p : Params} {a : Word} {n pa : Nat} (h : translateRange p a n = some pa) :
    translate p a = some pa := by
  unfold translateRange at h
  split at h
  · cases h
  · rename_i pb hb
    split at h
    · cases h
    · split at h <;> cases h
      exact hb

/-- Under the reference `TRANSLATE` a data access is at the low 29 bits of its address (R59). -/
theorem dataAddress_reference {p : Params} {a : Word} {n pa : Nat} (hp : p.segments = Config.referenceSegments)
    (h : dataAddress p a n = .ok pa) : pa = a.toNat % 2 ^ 29 :=
  translate_reference p a pa hp (translate_of_translateRange ((dataAddress_ok p a n pa).mp h).2)

/-! ## Fetches (R63) -/

theorem State.fetch_misaligned {s : State} {a : Word} (h : a.toNat % 4 ≠ 0) : s.fetch a = .error (.fetchMisaligned a) :=
  if_pos fun e => h ((extractLsb_two_eq_zero_iff a).mp e)

theorem State.fetch_unmapped {s : State} {a : Word} (ha : a.toNat % 4 = 0) (h : translate s.par a = none) :
    s.fetch a = .error (.fetchUnmapped a) := by
  simp [State.fetch, (extractLsb_two_eq_zero_iff a).mpr ha, h]

theorem State.fetch_mapped {s : State} {a : Word} {pa : Nat} (ha : a.toNat % 4 = 0) (h : translate s.par a = some pa) :
    s.fetch a = .ok (Memory.word s.mem pa) := by
  simp [State.fetch, (extractLsb_two_eq_zero_iff a).mpr ha, h]

/-- A CPU step whose fetch fails halts where it stands (R282). -/
theorem State.cpuStep_of_fetch_error {s : State} {r : HaltReason} (hpc : s.cpu.pc ≠ s.par.callbackReturnAddr)
    (hw : s.fetch s.cpu.pc = .error r) : s.cpuStep = .next (s.haltHere r) := by
  simp [State.cpuStep, hpc, hw]

/-- A CPU step of a word that is no instruction halts after the pc advance (R103, R282). -/
theorem State.cpuStep_of_decode_error {s : State} {w : Word} {e : DecodeError} (hpc : s.cpu.pc ≠ s.par.callbackReturnAddr)
    (hw : s.fetch s.cpu.pc = .ok w) (he : decode w = .error e) :
    s.cpuStep = .next (s.halted (.unrecognizedOpcode w s.cpu.pc)) := by
  simp [State.cpuStep, hpc, hw, he, State.halt]

/-- Settles O5: the three ways a fetch and its decoding can fail, each with its halt. -/
theorem fetchAndDecodeHalts : Obligations.FetchAndDecodeHalts := by
  intro s hrun hdue hreq hpc
  rw [step_of_running hrun hdue hreq]
  refine ⟨fun ha => ?_, fun ha hm => ?_, fun pa e ha hm he => ?_⟩
  · exact State.cpuStep_of_fetch_error hpc (State.fetch_misaligned ha)
  · exact State.cpuStep_of_fetch_error hpc (State.fetch_unmapped ha hm)
  · exact ⟨_, State.cpuStep_of_decode_error hpc (State.fetch_mapped ha hm) he, halts_halted s _⟩

/-! ## Bytes of halfwords and words (R55) -/

theorem Memory.half_toNat (m : List Host.Cell) (pa : Nat) :
    (Memory.half m pa).toNat = (Memory.read m (pa + 1)).toNat * 256 + (Memory.read m pa).toNat := by
  rw [Memory.half, BitVec.toNat_append, ← Nat.shiftLeft_add_eq_or_of_lt (Memory.read m pa).isLt, Nat.shiftLeft_eq]

theorem Memory.half_toInt (m : List Host.Cell) (pa : Nat) :
    (Memory.half m pa).toInt = (Memory.read m (pa + 1)).toInt * 256 + (Memory.read m pa).toNat := by
  rw [Memory.half, BitVec.toInt_append, if_neg (by decide), Int.mul_comm]
  rfl

/-- Byte `k` of the word at `pa` is the byte at `pa + k` (R55). -/
theorem Memory.byteOfWord_word (m : List Host.Cell) (pa k : Nat) (hk : k < 4) :
    byteOfWord (Memory.word m pa) k = Memory.read m (pa + k) := by
  unfold byteOfWord Memory.word wordOfBytes
  match k, hk with
  | 0, _ => exact BitVec.extractLsb'_append_eq_right
  | 1, _ => rw [BitVec.extractLsb'_append_eq_of_le (by decide)]; exact BitVec.extractLsb'_append_eq_right
  | 2, _ =>
    rw [BitVec.extractLsb'_append_eq_of_le (by decide), BitVec.extractLsb'_append_eq_of_le (by decide)]
    exact BitVec.extractLsb'_append_eq_right
  | 3, _ =>
    rw [BitVec.extractLsb'_append_eq_of_le (by decide), BitVec.extractLsb'_append_eq_of_le (by decide)]
    exact BitVec.extractLsb'_append_eq_left

/-- A word is known by its four bytes. -/
theorem word_ext_bytes {v w : Word} (h : ∀ k, k < 4 → byteOfWord v k = byteOfWord w k) : v = w := by
  apply BitVec.eq_of_getLsbD_eq
  intro i hi
  have hb := congrArg (BitVec.getLsbD · (i % 8)) (h (i / 8) (by omega))
  simp only [byteOfWord, BitVec.getLsbD_extractLsb'] at hb
  have hm : i % 8 < 8 := Nat.mod_lt i (by decide)
  have hi' : 8 * (i / 8) + i % 8 = i := Nat.div_add_mod i 8
  simpa [hm, hi'] using hb

theorem wordBytes_eq_map (v : Word) : wordBytes v = (List.range 4).map (byteOfWord v) := rfl

theorem halfBytes_low (v : Word) : halfBytes (v.extractLsb' 0 16) = [v.extractLsb' 0 8, v.extractLsb' 8 8] := by
  rw [halfBytes, BitVec.extractLsb'_extractLsb'_of_le (by decide), BitVec.extractLsb'_extractLsb'_of_le (by decide)]

/-! ## Bytes of the unaligned merges (R177, R181, R184, R186) -/

theorem getLsbD_lowMask (j : Nat) : (0x00FFFFFF#32 : Word).getLsbD j = decide (j < 24) :=
  Nat.testBit_two_pow_sub_one 24 j

theorem getLsbD_highMask (j : Nat) : (0xFFFFFF00#32 : Word).getLsbD j = (decide (8 ≤ j) && decide (j < 32)) := by
  have h : (0xFFFFFF00#32 : Word) = BitVec.allOnes 32 <<< 8 := by decide
  rw [h, BitVec.getLsbD_shiftLeft, BitVec.getLsbD_allOnes]
  grind

/-- LWL's merge byte by byte: the word's low bytes above the old register's. -/
theorem byteOfWord_mergeLeft (old w : Word) (lane k : Nat) (hl : lane < 4) (hk : k < 4) :
    byteOfWord (mergeLeft old w lane) k = if 3 ≤ k + lane then byteOfWord w (k + lane - 3) else byteOfWord old k := by
  unfold byteOfWord mergeLeft
  ext i hi
  simp only [BitVec.getElem_extractLsb', BitVec.getLsbD_or, BitVec.getLsbD_and, BitVec.getLsbD_ushiftRight,
    BitVec.getLsbD_shiftLeft, getLsbD_lowMask]
  split <;> rename_i hc
  · have hmask : ¬ 8 * lane + (8 * k + i) < 24 := by omega
    have hbit : 8 * k + i < 32 := by omega
    have hword : ¬ 8 * k + i < 24 - 8 * lane := by omega
    have hfrom : 8 * k + i - (24 - 8 * lane) = 8 * (k + lane - 3) + i := by omega
    simp [hmask, hbit, hword, hfrom]
  · have hmask : 8 * lane + (8 * k + i) < 24 := by omega
    have hword : 8 * k + i < 24 - 8 * lane := by omega
    simp [hmask, hword]

/-- LWR's merge byte by byte: the word's high bytes below the old register's. -/
theorem byteOfWord_mergeRight (old w : Word) (lane k : Nat) (hl : lane < 4) (hk : k < 4) :
    byteOfWord (mergeRight old w lane) k = if k + lane ≤ 3 then byteOfWord w (k + lane) else byteOfWord old k := by
  unfold byteOfWord mergeRight
  ext i hi
  simp only [BitVec.getElem_extractLsb', BitVec.getLsbD_or, BitVec.getLsbD_and, BitVec.getLsbD_ushiftRight,
    BitVec.getLsbD_shiftLeft, getLsbD_highMask]
  split <;> rename_i hc
  · have hmask : ¬ 8 ≤ 8 * k + i - (24 - 8 * lane) := by omega
    have hfrom : 8 * lane + (8 * k + i) = 8 * (k + lane) + i := by omega
    simp [hmask, hfrom]
  · have hmask : 8 ≤ 8 * k + i - (24 - 8 * lane) := by omega
    have hbit : 8 * k + i < 32 := by omega
    have hold : ¬ 8 * k + i < 24 - 8 * lane := by omega
    have hin : 8 * k + i - (24 - 8 * lane) < 32 := by omega
    have hword : w.getLsbD (8 * lane + (8 * k + i)) = false := BitVec.getLsbD_of_ge w _ (by omega)
    simp [hmask, hbit, hold, hin, hword]

/-- SWL merges the register into memory as LWR merges memory into a register, from the other end. -/
theorem storeLeft_eq_mergeRight (m v : Word) (lane : Nat) (hl : lane < 4) : storeLeft m v lane = mergeRight m v (3 - lane) := by
  have h1 : 24 - 8 * (3 - lane) = 8 * lane := by omega
  have h2 : 8 * (3 - lane) = 24 - 8 * lane := by omega
  rw [storeLeft, mergeRight, h1, h2]

/-- SWR merges the register into memory as LWL merges memory into a register, from the other end. -/
theorem storeRight_eq_mergeLeft (m v : Word) (lane : Nat) (hl : lane < 4) : storeRight m v lane = mergeLeft m v (3 - lane) := by
  have h1 : 24 - 8 * (3 - lane) = 8 * lane := by omega
  have h2 : 8 * (3 - lane) = 24 - 8 * lane := by omega
  rw [storeRight, mergeLeft, h1, h2]

/-- SWL stores the most significant `lane + 1` bytes of the register, whatever memory held (R184). -/
theorem swlBytes_eq (m v : Word) (lane : Nat) (hl : lane < 4) :
    swlBytes m v lane = (List.range (lane + 1)).map fun k => byteOfWord v (k + 3 - lane) := by
  rw [swlBytes, wordBytes_eq_map, storeLeft_eq_mergeRight m v lane hl, ← List.map_take, List.take_range,
    Nat.min_eq_left (by omega)]
  apply List.map_congr_left
  intro k hk
  rw [List.mem_range] at hk
  rw [byteOfWord_mergeRight m v _ k (by omega) (by omega), if_pos (by omega), Nat.add_sub_assoc (by omega)]

/-- SWR stores the least significant `4 - lane` bytes of the register, whatever memory held (R186). -/
theorem swrBytes_eq (m v : Word) (lane : Nat) (hl : lane < 4) :
    swrBytes m v lane = (List.range (4 - lane)).map (byteOfWord v) := by
  rw [swrBytes, wordBytes_eq_map, storeRight_eq_mergeLeft m v lane hl]
  apply List.ext_getElem
  · simp
  · intro k hk _
    have hk' : lane + k < 4 := by simp at hk; omega
    simp only [List.getElem_drop, List.getElem_map, List.getElem_range]
    rw [byteOfWord_mergeLeft m v _ _ (by omega) hk', if_pos (by omega)]
    congr 1
    omega

/-! ## Loads and stores that are answered -/

section
variable {s : State} {a : Word} {pa : Nat}

theorem State.loadByte_of_ok (h : dataAddress s.par a 1 = .ok pa) : s.loadByte a = .ok (Memory.read s.mem pa) :=
  (s.loadByte_ok a _).mpr ⟨pa, h, rfl⟩

theorem State.loadHalf_of_ok (h : dataAddress s.par a 2 = .ok pa) : s.loadHalf a = .ok (Memory.half s.mem pa) :=
  (s.loadHalf_ok a _).mpr ⟨pa, h, rfl⟩

theorem State.loadWord_of_ok (h : dataAddress s.par a 4 = .ok pa) : s.loadWord a = .ok (Memory.word s.mem pa) :=
  (s.loadWord_ok a _).mpr ⟨pa, h, rfl⟩

theorem State.storeChecked_of_ok {bs : List Byte} (h : dataAddress s.par a bs.length = .ok pa) :
    s.storeChecked a bs = .ok (s.storeBytes pa bs) := (s.storeChecked_ok _ a bs).mpr ⟨pa, h, rfl⟩

theorem State.orHalt_of_ok {α : Type} {r : Except HaltReason α} {x : α} (k : α → State) (hr : r = .ok x) :
    s.orHalt r k = .next (k x) := by rw [hr, State.orHalt_ok]

theorem State.orHalt_of_error {α : Type} {r : Except HaltReason α} {e : HaltReason} (k : α → State) (hr : r = .error e) :
    s.orHalt r k = .next (s.halted e) := by rw [hr, State.orHalt_error]

end

section
variable {s : State} {base : Reg} {off : BitVec 16} {pa : Nat}

theorem exec_lb (rt : Reg) (h : dataAddress s.par (s.ea base off) 1 = .ok pa) :
    exec (.lb rt base off) s = .next (s.advance.setX rt ((Memory.read s.mem pa).signExtend 32)) :=
  State.orHalt_of_ok (fun v : Byte => s.advance.setX rt (v.signExtend 32)) (State.loadByte_of_ok h)

theorem exec_lbu (rt : Reg) (h : dataAddress s.par (s.ea base off) 1 = .ok pa) :
    exec (.lbu rt base off) s = .next (s.advance.setX rt ((Memory.read s.mem pa).setWidth 32)) :=
  State.orHalt_of_ok (fun v : Byte => s.advance.setX rt (v.setWidth 32)) (State.loadByte_of_ok h)

theorem exec_lh (rt : Reg) (h : dataAddress s.par (s.ea base off) 2 = .ok pa) :
    exec (.lh rt base off) s = .next (s.advance.setX rt ((Memory.half s.mem pa).signExtend 32)) :=
  State.orHalt_of_ok (fun v : BitVec 16 => s.advance.setX rt (v.signExtend 32)) (State.loadHalf_of_ok h)

theorem exec_lhu (rt : Reg) (h : dataAddress s.par (s.ea base off) 2 = .ok pa) :
    exec (.lhu rt base off) s = .next (s.advance.setX rt ((Memory.half s.mem pa).setWidth 32)) :=
  State.orHalt_of_ok (fun v : BitVec 16 => s.advance.setX rt (v.setWidth 32)) (State.loadHalf_of_ok h)

theorem exec_lw (rt : Reg) (h : dataAddress s.par (s.ea base off) 4 = .ok pa) :
    exec (.lw rt base off) s = .next (s.advance.setX rt (Memory.word s.mem pa)) :=
  State.orHalt_of_ok (fun v => s.advance.setX rt v) (State.loadWord_of_ok h)

theorem exec_lwc1 (ft : FReg) (h : dataAddress s.par (s.ea base off) 4 = .ok pa) :
    exec (.lwc1 ft base off) s = .next (s.advance.setF ft (Memory.word s.mem pa)) :=
  State.orHalt_of_ok (fun v => s.advance.setF ft v) (State.loadWord_of_ok h)

theorem exec_lwl (rt : Reg) (h : dataAddress s.par (alignDown4 (s.ea base off)) 4 = .ok pa) :
    exec (.lwl rt base off) s =
      .next (s.advance.setX rt (mergeLeft (s.x rt) (Memory.word s.mem pa) (byteLane (s.ea base off)))) :=
  State.orHalt_of_ok (fun v => s.advance.setX rt (mergeLeft (s.x rt) v (byteLane (s.ea base off))))
    (State.loadWord_of_ok h)

theorem exec_lwr (rt : Reg) (h : dataAddress s.par (alignDown4 (s.ea base off)) 4 = .ok pa) :
    exec (.lwr rt base off) s =
      .next (s.advance.setX rt (mergeRight (s.x rt) (Memory.word s.mem pa) (byteLane (s.ea base off)))) :=
  State.orHalt_of_ok (fun v => s.advance.setX rt (mergeRight (s.x rt) v (byteLane (s.ea base off))))
    (State.loadWord_of_ok h)

theorem exec_sb (rt : Reg) (h : dataAddress s.par (s.ea base off) 1 = .ok pa) :
    exec (.sb rt base off) s = .next (s.storeBytes pa [(s.x rt).extractLsb' 0 8]).advance :=
  State.orHalt_of_ok State.advance (State.storeChecked_of_ok h)

theorem exec_sh (rt : Reg) (h : dataAddress s.par (s.ea base off) 2 = .ok pa) :
    exec (.sh rt base off) s = .next (s.storeBytes pa (halfBytes ((s.x rt).extractLsb' 0 16))).advance :=
  State.orHalt_of_ok State.advance (State.storeChecked_of_ok h)

theorem exec_sw (rt : Reg) (h : dataAddress s.par (s.ea base off) 4 = .ok pa) :
    exec (.sw rt base off) s = .next (s.storeBytes pa (wordBytes (s.x rt))).advance :=
  State.orHalt_of_ok State.advance (State.storeChecked_of_ok h)

theorem exec_swc1 (ft : FReg) (h : dataAddress s.par (s.ea base off) 4 = .ok pa) :
    exec (.swc1 ft base off) s = .next (s.storeBytes pa (wordBytes (s.f ft))).advance :=
  State.orHalt_of_ok State.advance (State.storeChecked_of_ok h)

theorem exec_swl (rt : Reg) (h : dataAddress s.par (alignDown4 (s.ea base off)) 4 = .ok pa) :
    exec (.swl rt base off) s =
      .next (s.storeBytes pa (swlBytes (Memory.word s.mem pa) (s.x rt) (byteLane (s.ea base off)))).advance :=
  State.orHalt_of_ok
    (fun q => (s.storeBytes q (swlBytes (Memory.word s.mem q) (s.x rt) (byteLane (s.ea base off)))).advance) h

theorem exec_swr (rt : Reg) (h : dataAddress s.par (alignDown4 (s.ea base off)) 4 = .ok pa) :
    exec (.swr rt base off) s = .next (s.storeBytes (pa + byteLane (s.ea base off))
      (swrBytes (Memory.word s.mem pa) (s.x rt) (byteLane (s.ea base off)))).advance :=
  State.orHalt_of_ok (fun q => (s.storeBytes (q + byteLane (s.ea base off))
    (swrBytes (Memory.word s.mem q) (s.x rt) (byteLane (s.ea base off)))).advance) h

end

/-- Settles O16: each load as its write of a register, and the bytes of what it writes. -/
theorem loads : Obligations.Loads := by
  intro s rt base ft off pa
  refine ⟨fun h => ⟨?_, ?_⟩, fun h => ⟨?_, ?_⟩, fun h => ⟨?_, ?_⟩, fun h => ⟨?_, ?_⟩⟩
  · exact ⟨_, _, exec_lb rt h, BitVec.toInt_signExtend_of_le (by decide), writesReg_advance_setX s rt _⟩
  · exact ⟨_, _, exec_lbu rt h, BitVec.toNat_setWidth_of_le (by decide), writesReg_advance_setX s rt _⟩
  · exact ⟨_, _, exec_lh rt h, (BitVec.toInt_signExtend_of_le (by decide)).trans (Memory.half_toInt s.mem pa),
      writesReg_advance_setX s rt _⟩
  · exact ⟨_, _, exec_lhu rt h, (BitVec.toNat_setWidth_of_le (by decide)).trans (Memory.half_toNat s.mem pa),
      writesReg_advance_setX s rt _⟩
  · exact ⟨_, _, exec_lw rt h, Memory.byteOfWord_word s.mem pa, writesReg_advance_setX s rt _⟩
  · exact ⟨_, _, exec_lwc1 ft h, Memory.byteOfWord_word s.mem pa, writesFpr_advance_setF s ft _⟩
  · refine ⟨_, _, exec_lwl rt h, fun k hk => ?_, writesReg_advance_setX s rt _⟩
    have hb := byteOfWord_mergeLeft (s.x rt) (Memory.word s.mem pa) _ k (byteLane_lt (s.ea base off)) hk
    rw [← byteLane_eq, ← Memory.byteOfWord_word s.mem pa _ (by have := byteLane_lt (s.ea base off); omega)]
    exact hb
  · refine ⟨_, _, exec_lwr rt h, fun k hk => ?_, writesReg_advance_setX s rt _⟩
    have hb := byteOfWord_mergeRight (s.x rt) (Memory.word s.mem pa) _ k (byteLane_lt (s.ea base off)) hk
    rw [← byteLane_eq]
    refine hb.trans (ite_congr rfl (fun hc => ?_) fun _ => rfl)
    exact Memory.byteOfWord_word s.mem pa _ (by omega)

/-- Settles O17: each store as its bytes at a physical address, whose frame is `stores_storeBytes`. -/
theorem storesWrite : Obligations.StoresWrite := by
  intro s rt base ft off pa hm
  have hl := byteLane_lt (s.ea base off)
  refine ⟨fun h => ?_, fun h => ?_, fun h => ⟨?_, ?_⟩, fun h => ⟨?_, ?_⟩⟩
  · exact ⟨_, exec_sb rt h, stores_storeBytes s pa _ hm⟩
  · rw [← halfBytes_low]
    exact ⟨_, exec_sh rt h, stores_storeBytes s pa _ hm⟩
  · exact ⟨_, exec_sw rt h, stores_storeBytes s pa _ hm⟩
  · exact ⟨_, exec_swc1 ft h, stores_storeBytes s pa _ hm⟩
  · have hb := swlBytes_eq (Memory.word s.mem pa) (s.x rt) _ hl
    rw [← byteLane_eq]
    exact ⟨_, exec_swl rt h, hb ▸ stores_storeBytes s pa _ hm⟩
  · have hb := swrBytes_eq (Memory.word s.mem pa) (s.x rt) _ hl
    rw [← byteLane_eq]
    exact ⟨_, exec_swr rt h, hb ▸ stores_storeBytes s _ _ hm⟩

/-! ## Data accesses that halt (R61, R62, R284) -/

/-- The address and the size of an instruction's data access (R64, R173). -/
def dataAccess (i : Instr) (s : State) : Option (Word × Nat) :=
  match i with
  | .lb _ base off | .lbu _ base off | .sb _ base off => some (s.ea base off, 1)
  | .lh _ base off | .lhu _ base off | .sh _ base off => some (s.ea base off, 2)
  | .lw _ base off | .sw _ base off | .lwc1 _ base off | .swc1 _ base off => some (s.ea base off, 4)
  | .lwl _ base off | .lwr _ base off | .swl _ base off | .swr _ base off => some (alignDown4 (s.ea base off), 4)
  | _ => none

/-- An instruction whose data access fails halts after the pc advance, and does nothing else. -/
theorem exec_of_dataAccess_error {i : Instr} {s : State} {a : Word} {n : Nat} {r : HaltReason}
    (hi : dataAccess i s = some (a, n)) (h : dataAddress s.par a n = .error r) : exec i s = .next (s.halted r) := by
  have hb (hn : n = 1) : s.loadByte a = .error r := by subst hn; simp [State.loadByte, h]
  have hh (hn : n = 2) : s.loadHalf a = .error r := by subst hn; simp [State.loadHalf, h]
  have hw (hn : n = 4) : s.loadWord a = .error r := by subst hn; simp [State.loadWord, h]
  have hs (bs : List Byte) (hn : bs.length = n) : s.storeChecked a bs = .error r := by
    subst hn; simp [State.storeChecked, h]
  cases i <;> cases hi
  case lb | lbu => exact State.orHalt_of_error _ (hb rfl)
  case lh | lhu => exact State.orHalt_of_error _ (hh rfl)
  case lw | lwl | lwr | lwc1 => exact State.orHalt_of_error _ (hw rfl)
  case sb | sh | sw | swc1 => exact State.orHalt_of_error _ (hs _ rfl)
  case swl | swr => exact State.orHalt_of_error _ h

section
variable {i : Instr} {s : State} {a : Word} {n : Nat}

theorem halts_of_misaligned (hi : dataAccess i s = some (a, n)) (h : a.toNat % n ≠ 0) :
    ∃ t, exec i s = .next t ∧ Halts s t (.addressMisaligned a n) :=
  ⟨_, exec_of_dataAccess_error hi (dataAddress_misaligned h), halts_halted s _⟩

theorem halts_of_unmapped (hi : dataAccess i s = some (a, n)) (ha : a.toNat % n = 0) (h : translateRange s.par a n = none) :
    ∃ t, exec i s = .next t ∧ Halts s t (.addressUnmapped a n) :=
  ⟨_, exec_of_dataAccess_error hi (dataAddress_unmapped ha h), halts_halted s _⟩

end

/-- Settles O18: each instruction by its data access, and the two ways that the access fails. -/
theorem dataAccessHalts : Obligations.DataAccessHalts := by
  intro s rt base ft off
  simp only [List.forall_mem_cons, List.not_mem_nil, false_imp_iff, implies_true, and_true]
  refine ⟨?_, ?_, ?_, ?_, ?_, ?_⟩
  · exact ⟨halts_of_misaligned rfl, halts_of_misaligned rfl, halts_of_misaligned rfl⟩
  · exact ⟨halts_of_misaligned rfl, halts_of_misaligned rfl, halts_of_misaligned rfl, halts_of_misaligned rfl⟩
  · have ha : (s.ea base off).toNat % 1 = 0 := Nat.mod_one _
    exact ⟨halts_of_unmapped rfl ha, halts_of_unmapped rfl ha, halts_of_unmapped rfl ha⟩
  · exact ⟨halts_of_unmapped rfl, halts_of_unmapped rfl, halts_of_unmapped rfl⟩
  · exact ⟨halts_of_unmapped rfl, halts_of_unmapped rfl, halts_of_unmapped rfl, halts_of_unmapped rfl⟩
  · have ha := alignDown4_aligned (s.ea base off)
    exact ⟨halts_of_unmapped rfl ha, halts_of_unmapped rfl ha, halts_of_unmapped rfl ha, halts_of_unmapped rfl ha⟩

/-! ## A store read back (R56, R59, R70) -/

/-- After a word is stored, each of its bytes is read back. -/
theorem read_storeBytes_word {s : State} (hm : Memory.wf s.mem = true) (pa : Nat) (v : Word) {k : Nat} (hk : k < 4) :
    Memory.read (s.storeBytes pa (wordBytes v)).mem (pa + k) = byteOfWord v k := by
  refine ((stores_storeBytes s pa (wordBytes v) hm).stored k hk).trans ?_
  simp [wordBytes_eq_map]

/-- After a word is stored, the word is read back. -/
theorem word_storeBytes_word {s : State} (hm : Memory.wf s.mem = true) (pa : Nat) (v : Word) :
    Memory.word (s.storeBytes pa (wordBytes v)).mem pa = v :=
  word_ext_bytes fun k hk => (Memory.byteOfWord_word _ pa k hk).trans (read_storeBytes_word hm pa v hk)

/-- Two addresses with the same low 29 bits are the same modulo 2^29. -/
theorem mod_eq_of_extractLsb_eq {a b : Word} (h : a.extractLsb' 0 29 = b.extractLsb' 0 29) :
    a.toNat % 2 ^ 29 = b.toNat % 2 ^ 29 := by
  have h' := congrArg BitVec.toNat h
  simpa [BitVec.extractLsb'_toNat] using h'

/-- Within an aligned word no carry leaves the low two bits, so none reaches bit 29. -/
theorem add_mod_of_aligned {a : Word} (ha : a.toNat % 4 = 0) {k : Nat} (hk : k < 4) :
    (a + BitVec.ofNat 32 k).toNat % 2 ^ 29 = a.toNat % 2 ^ 29 + k := by
  rw [BitVec.toNat_add, BitVec.toNat_ofNat]
  omega

/-- Settles O19: the store's bytes are read back at their physical addresses, which the reference `TRANSLATE` takes from the low 29
bits. -/
theorem storeThenLoad : Obligations.StoreThenLoad := by
  intro s rt rd base b2 off o2 pa hm h
  refine ⟨⟨_, exec_sw rt h, fun h2 => ?_, fun k hk h2 => ?_⟩, fun hp => ⟨fun pb h2 he => ?_, fun k pb hk h2 he => ?_⟩⟩
  · refine ⟨_, exec_lw rd h2, fun hrd => ?_⟩
    exact (Context.x_setX_same _ rd _ hrd).trans (word_storeBytes_word hm pa (s.x rt))
  · refine ⟨_, exec_lbu rd h2, fun hrd => ?_⟩
    have hb := read_storeBytes_word hm pa (s.x rt) hk
    calc _ = ((Memory.read (s.storeBytes pa (wordBytes (s.x rt))).mem (pa + k)).setWidth 32).toNat :=
          congrArg BitVec.toNat (Context.x_setX_same _ rd _ hrd)
      _ = (byteOfWord (s.x rt) k).toNat := by rw [BitVec.toNat_setWidth_of_le (by decide), hb]
  · rw [dataAddress_reference hp h2, dataAddress_reference hp h, mod_eq_of_extractLsb_eq he]
  · have ha := ((dataAddress_ok s.par (s.ea base off) 4 pa).mp h).1
    rw [dataAddress_reference hp h2, dataAddress_reference hp h, mod_eq_of_extractLsb_eq he, add_mod_of_aligned ha hk]

end Sys2Proof.Machine
end

section
/-! SUPPORT. The encoder and the decoder are inverse to each other. A word is the encoding of its fields, so it is the word of an
instruction exactly when its fields are that instruction's (`encodeR_eq_iff` and its companions); decoding reads those
fields, opcode map by opcode map. -/

namespace Sys2Proof

/-! ## A word is its fields (R82 to R86, R93) -/

theorem encodeR_fields (w : Word) :
    encodeR (fieldOp w) (fieldRs w) (fieldRt w) (fieldRd w) (fieldSa w) (fieldFunct w) = w := by
  unfold encodeR fieldOp fieldRs fieldRt fieldRd fieldSa fieldFunct
  ext i hi; simp; grind

theorem encodeI_fields (w : Word) : encodeI (fieldOp w) (fieldRs w) (fieldRt w) (fieldImm w) = w := by
  unfold encodeI fieldOp fieldRs fieldRt fieldImm
  ext i hi; simp; grind

theorem encodeJ_fields (w : Word) : encodeJ (fieldOp w) (fieldTarget w) = w := by
  unfold encodeJ fieldOp fieldTarget
  ext i hi; simp; grind

theorem encodeCode_fields {w : Word} (h : fieldOp w = 0#6) : encodeCode (fieldCode w) (fieldFunct w) = w := by
  rw [encodeCode, ← h]
  unfold fieldOp fieldCode fieldFunct
  ext i hi; simp; grind

theorem encodeR_eq_iff {op : BitVec 6} {rs rt rd sa : BitVec 5} {funct : BitVec 6} {w : Word} :
    encodeR op rs rt rd sa funct = w ↔ fieldOp w = op ∧ fieldRs w = rs ∧ fieldRt w = rt ∧ fieldRd w = rd ∧
      fieldSa w = sa ∧ fieldFunct w = funct := by
  constructor
  · rintro rfl; simp
  · rintro ⟨rfl, rfl, rfl, rfl, rfl, rfl⟩; exact encodeR_fields w

theorem encodeI_eq_iff {op : BitVec 6} {rs rt : BitVec 5} {imm : BitVec 16} {w : Word} :
    encodeI op rs rt imm = w ↔ fieldOp w = op ∧ fieldRs w = rs ∧ fieldRt w = rt ∧ fieldImm w = imm := by
  constructor
  · rintro rfl; simp
  · rintro ⟨rfl, rfl, rfl, rfl⟩; exact encodeI_fields w

theorem encodeJ_eq_iff {op : BitVec 6} {t : BitVec 26} {w : Word} :
    encodeJ op t = w ↔ fieldOp w = op ∧ fieldTarget w = t := by
  constructor
  · rintro rfl; simp
  · rintro ⟨rfl, rfl⟩; exact encodeJ_fields w

theorem encodeCode_eq_iff {c : BitVec 20} {f : BitVec 6} {w : Word} :
    encodeCode c f = w ↔ fieldOp w = 0#6 ∧ fieldCode w = c ∧ fieldFunct w = f := by
  constructor
  · rintro rfl; simp
  · rintro ⟨h, rfl, rfl⟩; exact encodeCode_fields h

theorem primaryOpcode_eq_fieldOp (w : Word) : primaryOpcode w = fieldOp w := rfl

/-! ## Decoding gives only words of instructions (R97, R99) -/

/-- A decoder's answer for `w` is sound: an instruction it gives is well formed, and `w` is its word. -/
def DecodesSoundly (w : Word) (r : Except DecodeError Instr) : Prop :=
  ∀ i, r = .ok i → WellFormed i = true ∧ encode i = w

namespace DecodesSoundly
variable {w : Word} {i : Instr}

theorem error (e : DecodeError) : DecodesSoundly w (.error e) := fun _ h => nomatch h

theorem ok (hwf : WellFormed i = true) (hw : encode i = w) : DecodesSoundly w (.ok i) := by
  rintro _ ⟨⟩
  exact ⟨hwf, hw⟩

/-- A check of reserved fields leaves them zero where it accepts (R99). -/
theorem checkReserved {zero : Bool} (hwf : WellFormed i = true) (hw : zero = true → encode i = w) :
    DecodesSoundly w (checkReserved zero i) := by
  cases zero with
  | false => exact error _
  | true => exact ok hwf (hw rfl)

theorem ite {c : Prop} [Decidable c] {r r' : Except DecodeError Instr} (ht : c → DecodesSoundly w r)
    (he : ¬ c → DecodesSoundly w r') : DecodesSoundly w (if c then r else r') := by
  split
  case isTrue hc => exact ht hc
  case isFalse hc => exact he hc

end DecodesSoundly

section Soundness
variable {w : Word}

/-! One lemma per opcode map. In each entry the fields that select it and the reserved fields are known, and every other field is an
operand; so the fields of the entry's instruction are those of `w`. The entries named by `case` are those that differ from
the map's usual form: other formats, maps within the map, and the error. -/

theorem decodeSpecial_sound (hop : fieldOp w = 0x00#6) : DecodesSoundly w (decodeSpecial w) := by
  unfold decodeSpecial
  dsimp only
  split
  case h_2 hf | h_5 hf =>
    refine .ite (fun h0 => .ok rfl (encodeR_eq_iff.mpr ?_)) fun _ =>
      .ite (fun h1 => .ok rfl (encodeR_eq_iff.mpr ?_)) fun _ => .error _
    · simp [hop, hf, h0]
    · simp [hop, hf, h1]
  case h_11 hf | h_12 hf => exact .ok rfl (encodeCode_eq_iff.mpr ⟨hop, rfl, hf⟩)
  case h_40 => exact .error _
  all_goals
    rename_i hf
    exact .checkReserved rfl fun hz => encodeR_eq_iff.mpr (by simpa [hop, hf, and_assoc] using hz)

theorem decodeRegimm_sound (hop : fieldOp w = 0x01#6) : DecodesSoundly w (decodeRegimm w) := by
  unfold decodeRegimm
  dsimp only
  split
  case h_9 => exact .error _
  all_goals
    rename_i hrt
    exact .ok rfl (encodeI_eq_iff.mpr ⟨hop, rfl, hrt, rfl⟩)

theorem decodeCop1S_sound (hop : fieldOp w = 0x11#6) (hrs : fieldRs w = 0x10#5) : DecodesSoundly w (decodeCop1S w) := by
  unfold decodeCop1S
  dsimp only
  split
  case h_1 hf | h_2 hf | h_3 hf | h_4 hf => exact .ok rfl (encodeR_eq_iff.mpr ⟨hop, hrs, rfl, rfl, rfl, hf⟩)
  case h_30 => exact .error _
  all_goals
    rename_i hf
    exact .checkReserved rfl fun hz => encodeR_eq_iff.mpr (by simpa [hop, hrs, hf] using hz)

theorem decodeCop1W_sound (hop : fieldOp w = 0x11#6) (hrs : fieldRs w = 0x14#5) : DecodesSoundly w (decodeCop1W w) := by
  unfold decodeCop1W
  split
  case h_1 hf => exact .checkReserved rfl fun hz => encodeR_eq_iff.mpr (by simpa [hop, hrs, hf] using hz)
  case h_2 => exact .error _

theorem decodeBc1_sound (hop : fieldOp w = 0x11#6) (hrs : fieldRs w = 0x08#5) : DecodesSoundly w (decodeBc1 w) := by
  unfold decodeBc1
  dsimp only
  split
  case h_5 => exact .error _
  all_goals
    rename_i hrt
    exact .ok rfl (encodeI_eq_iff.mpr ⟨hop, hrs, hrt, rfl⟩)

theorem decodeCop1_sound (hop : fieldOp w = 0x11#6) : DecodesSoundly w (decodeCop1 w) := by
  unfold decodeCop1
  dsimp only
  split
  case h_5 hrs => exact decodeBc1_sound hop hrs
  case h_6 hrs => exact decodeCop1S_sound hop hrs
  case h_7 hrs => exact decodeCop1W_sound hop hrs
  case h_8 => exact .error _
  all_goals
    rename_i hrs
    exact .checkReserved rfl fun hz => encodeR_eq_iff.mpr (by simpa [hop, hrs] using hz)

theorem decodeBshfl_sound (hop : fieldOp w = 0x1F#6) (hf : fieldFunct w = 0x20#6) : DecodesSoundly w (decodeBshfl w) := by
  unfold decodeBshfl
  dsimp only
  split
  case h_6 => exact .error _
  all_goals
    rename_i hsa
    exact .checkReserved rfl fun hz => encodeR_eq_iff.mpr (by simpa [hop, hf, hsa] using hz)

theorem decodeSpecial3_sound (hop : fieldOp w = 0x1F#6) : DecodesSoundly w (decodeSpecial3 w) := by
  unfold decodeSpecial3
  split
  case h_1 hf =>
    have hsize : (fieldRd w).toNat + 1 ≤ 32 := (fieldRd w).isLt
    exact .ok (by simp [WellFormed, hsize]) (encodeR_eq_iff.mpr (by simp [hop, hf]))
  case h_2 hf => exact .ok rfl (encodeR_eq_iff.mpr ⟨hop, rfl, rfl, rfl, rfl, hf⟩)
  case h_3 hf => exact decodeBshfl_sound hop hf
  case h_4 => exact .error _

theorem decode_sound (w : Word) : DecodesSoundly w (decode w) := by
  unfold decode
  dsimp only
  split
  case h_1 hop => exact decodeSpecial_sound hop
  case h_2 hop => exact decodeRegimm_sound hop
  case h_18 hop => exact decodeCop1_sound hop
  case h_28 hop => exact decodeSpecial3_sound hop
  case h_3 hop | h_4 hop => exact .ok rfl (encodeJ_eq_iff.mpr ⟨hop, rfl⟩)
  case h_7 hop | h_8 hop | h_16 hop | h_22 hop | h_23 hop =>
    exact .checkReserved rfl fun hz => encodeI_eq_iff.mpr (by simpa [hop] using hz)
  case h_17 hop | h_19 hop | h_24 hop | h_25 hop | h_26 hop | h_27 hop | h_42 hop | h_44 hop | h_45 hop | h_46 hop | h_47 hop
      | h_48 hop | h_49 hop | h_51 hop | h_52 hop | h_53 hop | h_54 hop | h_55 hop =>
    exact .ok (beq_iff_eq.mpr hop) rfl
  case h_56 => exact .error _
  all_goals
    rename_i hop
    exact .ok rfl (encodeI_eq_iff.mpr ⟨hop, rfl, rfl, rfl⟩)

end Soundness

/-- Settles O2, opcode map by opcode map. -/
theorem encodeDecode : Obligations.EncodeDecode := decode_sound

/-! ## Decoding the word of an instruction (R97 to R102) -/

theorem checkReserved_true (i : Instr) : checkReserved true i = .ok i := rfl

section Maps
variable {w : Word}

/-! The fields that select each opcode map. -/

theorem decode_of_special (hop : fieldOp w = 0x00#6) : decode w = decodeSpecial w := by
  rw [decode, hop]
  rfl

theorem decode_of_regimm (hop : fieldOp w = 0x01#6) : decode w = decodeRegimm w := by
  rw [decode, hop]
  rfl

theorem decode_of_cop1 (hop : fieldOp w = 0x11#6) : decode w = decodeCop1 w := by
  rw [decode, hop]
  rfl

theorem decode_of_bc1 (hop : fieldOp w = 0x11#6) (hrs : fieldRs w = 0x08#5) : decode w = decodeBc1 w := by
  rw [decode_of_cop1 hop, decodeCop1, hrs]
  rfl

theorem decode_of_cop1S (hop : fieldOp w = 0x11#6) (hrs : fieldRs w = 0x10#5) : decode w = decodeCop1S w := by
  rw [decode_of_cop1 hop, decodeCop1, hrs]
  rfl

theorem decode_of_cop1W (hop : fieldOp w = 0x11#6) (hrs : fieldRs w = 0x14#5) : decode w = decodeCop1W w := by
  rw [decode_of_cop1 hop, decodeCop1, hrs]
  rfl

theorem decode_of_special3 (hop : fieldOp w = 0x1F#6) : decode w = decodeSpecial3 w := by
  rw [decode, hop]
  rfl

theorem decode_of_bshfl (hop : fieldOp w = 0x1F#6) (hf : fieldFunct w = 0x20#6) : decode w = decodeBshfl w := by
  rw [decode_of_special3 hop, decodeSpecial3, hf]
  rfl

end Maps

/-- Settles O1, by the opcode map that the instruction's fixed fields select. -/
theorem decodeEncode : Obligations.DecodeEncode := by
  intro i hi
  cases i with
  | sll | srl | rotr | sra | sllv | srlv | rotrv | srav | movz | movn | clz | clo | add | addu | sub | subu | and | or | xor
  | nor | slt | sltu | max | min | mfhi | mthi | mflo | mtlo | mult | multu | madd | maddu | msub | msubu | div | divu | jr | jalr
  | syscall | brk | sync =>
    simp [encode, decode_of_special, decodeSpecial, checkReserved_true]
  | bltz | bgez | bltzl | bgezl | bltzal | bgezal | bltzall | bgezall =>
    simp [encode, decode_of_regimm, decodeRegimm]
  | mfc1 | mtc1 | cfc1 | ctc1 =>
    simp [encode, decode_of_cop1, decodeCop1, checkReserved_true]
  | bc1f | bc1t | bc1fl | bc1tl =>
    simp [encode, decode_of_bc1, decodeBc1]
  | addS | subS | mulS | divS | sqrtS | absS | movS | negS | roundWS | cvtWS | truncWS | ceilWS | floorWS | cF | cUn | cEq | cUeq
  | cOlt | cUlt | cOle | cUle | cSf | cNgle | cSeq | cNgl | cLt | cNge | cLe | cNgt =>
    simp [encode, decode_of_cop1S, decodeCop1S, checkReserved_true]
  | cvtSW =>
    simp [encode, decode_of_cop1W, decodeCop1W, checkReserved_true]
  | ext rt rs pos size =>
    have hsize : 1 ≤ size ∧ size ≤ 32 := by simpa [WellFormed] using hi
    have hfield : (size - 1) % 32 + 1 = size := by omega
    simp [encode, decode_of_special3, decodeSpecial3, hfield]
  | ins =>
    simp [encode, decode_of_special3, decodeSpecial3]
  | wsbh | wsbw | seb | bitrev | seh =>
    simp [encode, decode_of_bshfl, decodeBshfl, checkReserved_true]
  | addi | addiu | slti | sltiu | andi | ori | xori | lui | lb | lh | lwl | lw | lbu | lhu | lwr | sb | sh | swl | sw | swr | lwc1
  | swc1 | cache | beq | bne | blez | bgtz | beql | bnel | blezl | bgtzl =>
    rw [encode, decode, fieldOp_encodeI, fieldRs_encodeI, fieldRt_encodeI, fieldImm_encodeI]
    rfl
  | j | jal =>
    rw [encode, decode, fieldOp_encodeJ, fieldTarget_encodeJ]
    rfl
  | cop0 | cop2 | special2 | vfpu0 | vfpu1 | vfpu3 | lvS | vfpu4 | lvlrQ | lvQ | vfpu5 | svS | vfpu6 | svlrQ | svQ | vfpu7 | ll
  | sc =>
    simp only [WellFormed, beq_iff_eq, primaryOpcode_eq_fieldOp] at hi
    rw [encode, decode, hi]
    rfl

/-- A word decodes to exactly the well-formed instruction whose word it is. -/
theorem decode_eq_ok_iff {w : Word} {i : Instr} : decode w = .ok i ↔ WellFormed i = true ∧ encode i = w :=
  ⟨encodeDecode w i, fun ⟨hi, hw⟩ => hw ▸ decodeEncode i hi⟩

/-- Settles O3: each word is the encoding of its instruction. -/
theorem knownWordsDecode : Obligations.KnownWordsDecode := by
  unfold Obligations.KnownWordsDecode
  simp only [decode_eq_ok_iff]
  decide

end Sys2Proof
end

section
/-! SUPPORT. The arithmetic, logical, shift and move instructions: what each named result of the register ALU is, as a number or
bit by bit, and the frame of the write that carries it. -/

namespace Sys2Proof.Machine

/-! ## The shape of an answer -/

/-- An instruction that answers with the write of `v` to `r`, where `v` is as it should be. -/
theorem writes_of_exec {P : Word → Prop} {i : Instr} {s : State} {r : Reg} {v : Word}
    (h : exec i s = .next (s.advance.setX r v)) (hv : P v) : ∃ t v, exec i s = .next t ∧ P v ∧ WritesReg s t r v :=
  ⟨_, v, h, hv, writesReg_advance_setX s r v⟩

/-! ## Register moves (R119, R120, R150 to R153) -/

/-- A conditional move is a write of `rs` or of what `rd` holds already (R119, R120). -/
theorem writesReg_ite_advance (s : State) (c : Prop) [Decidable c] (r : Reg) (v : Word) :
    WritesReg s (if c then s.advance.setX r v else s.advance) r (if c then v else s.x r) := by
  split
  · exact writesReg_advance_setX s r v
  · exact writesReg_advance s r

theorem toNat_eq_zero_iff (v : Word) : v.toNat = 0 ↔ v = 0#32 := BitVec.toNat_inj (y := 0#32)

/-- Settles O7: two conditional writes, two writes of a register and two of the pair HI, LO. -/
theorem registerMoves : Obligations.RegisterMoves := by
  intro s rd rs rt
  simp only [toNat_eq_zero_iff]
  have hmovz := writesReg_ite_advance s (s.x rt = 0#32) rd (s.x rs)
  have hmovn := writesReg_ite_advance s (s.x rt ≠ 0#32) rd (s.x rs)
  rw [ite_not _ (s.x rs)] at hmovn
  exact ⟨⟨_, rfl, hmovz⟩, ⟨_, rfl, hmovn⟩, ⟨_, rfl, writesReg_advance_setX s rd _⟩,
    ⟨_, rfl, writesReg_advance_setX s rd _⟩, ⟨_, rfl, writesHiLo_setHiLo s _ _⟩, ⟨_, rfl, writesHiLo_setHiLo s _ _⟩⟩

/-! ## Shifts and rotates (R111 to R118) -/

theorem toNat_shiftLeft_eq (v : Word) (n : Nat) : (v <<< n).toNat = v.toNat * 2 ^ n % 2 ^ 32 := by
  rw [BitVec.toNat_shiftLeft, Nat.shiftLeft_eq]

theorem toNat_ushiftRight_eq (v : Word) (n : Nat) : (v >>> n).toNat = v.toNat / 2 ^ n := by
  rw [BitVec.toNat_ushiftRight, Nat.shiftRight_eq_div_pow]

theorem toInt_sshiftRight_eq (v : Word) (n : Nat) : (v.sshiftRight n).toInt = v.toInt / 2 ^ n := by
  rw [BitVec.toInt_sshiftRight, Int.shiftRight_eq_div_pow]
  norm_cast

/-- A rotation moves bit `i + n`, modulo 32, to bit `i` (R113). -/
theorem getLsbD_rotateRight (v : Word) {n i : Nat} (hn : n < 32) (hi : i < 32) :
    (rotateRight v n).getLsbD i = v.getLsbD ((i + n) % 32) := by
  unfold rotateRight
  split
  · next h => rw [h, Nat.add_zero, Nat.mod_eq_of_lt hi]
  rw [BitVec.getLsbD_or, BitVec.getLsbD_ushiftRight, BitVec.getLsbD_shiftLeft]
  by_cases hc : i + n < 32
  · have hlow : i < 32 - n := by omega
    simp [hlow, Nat.mod_eq_of_lt hc, Nat.add_comm n i]
  · have hhigh : ¬ i < 32 - n := by omega
    have hout : v.getLsbD (n + i) = false := BitVec.getLsbD_of_ge v _ (by omega)
    have hmod : (i + n) % 32 = i - (32 - n) := by omega
    simp [hhigh, hi, hout, hmod]

/-- A variable shift reads the low five bits of its register (R115). -/
theorem State.shiftAmount_eq (s : State) (r : Reg) : s.shiftAmount r = (s.x r).toNat % 32 := by
  rw [State.shiftAmount, BitVec.extractLsb'_toNat, Nat.shiftRight_zero]

theorem State.shiftAmount_lt (s : State) (r : Reg) : s.shiftAmount r < 32 := ((s.x r).extractLsb' 0 5).isLt

/-- Settles O6: the fixed and the variable form of each shift write the same result, at their amounts. -/
theorem shifts : Obligations.Shifts := by
  intro s rd rt rs sa
  simp only [← State.shiftAmount_eq]
  refine ⟨?_, ?_, ?_, ?_, ?_, ?_, ?_, ?_⟩
  · exact writes_of_exec rfl (toNat_shiftLeft_eq (s.x rt) sa.toNat)
  · exact writes_of_exec rfl (toNat_ushiftRight_eq (s.x rt) sa.toNat)
  · exact writes_of_exec rfl fun i hi => getLsbD_rotateRight (s.x rt) sa.isLt hi
  · exact writes_of_exec rfl (toInt_sshiftRight_eq (s.x rt) sa.toNat)
  · exact writes_of_exec rfl (toNat_shiftLeft_eq (s.x rt) (s.shiftAmount rs))
  · exact writes_of_exec rfl (toNat_ushiftRight_eq (s.x rt) (s.shiftAmount rs))
  · exact writes_of_exec rfl fun i hi => getLsbD_rotateRight (s.x rt) (s.shiftAmount_lt rs) hi
  · exact writes_of_exec rfl (toInt_sshiftRight_eq (s.x rt) (s.shiftAmount rs))

/-! ## Bit counts (R121, R122) -/

/-- The bits of `v` below `n` begin, from bit `n - 1` down, with a run of exactly `k` bits equal to `b`. -/
structure TopRun (v : Word) (b : Bool) (n k : Nat) : Prop where
  le : k ≤ n
  run : ∀ i, n - k ≤ i → i < n → v.getLsbD i = b
  stop : k < n → v.getLsbD (n - 1 - k) = !b

namespace TopRun
variable {v : Word} {b : Bool} {n k : Nat}

theorem nil : TopRun v b 0 0 :=
  ⟨Nat.le_refl 0, fun _ _ h => absurd h (Nat.not_lt_zero _), fun h => absurd h (Nat.lt_irrefl 0)⟩

/-- A top bit other than `b` ends the run at once. -/
theorem of_stop (h : v.getLsbD n = !b) : TopRun v b (n + 1) 0 :=
  ⟨Nat.zero_le _, fun _ h1 h2 => absurd h2 (Nat.not_lt.mpr h1), fun _ => h⟩

/-- A top bit `b` makes the run below it one longer. -/
theorem of_run (h : v.getLsbD n = b) (hk : TopRun v b n k) : TopRun v b (n + 1) (k + 1) where
  le := Nat.succ_le_succ hk.le
  run i hlow hi := by
    obtain rfl | hlt := Nat.eq_or_lt_of_le (Nat.le_of_lt_succ hi)
    · exact h
    · exact hk.run i (by omega) hlt
  stop hlt := by
    have hi : n + 1 - 1 - (k + 1) = n - 1 - k := by omega
    rw [hi]
    exact hk.stop (by omega)

end TopRun

theorem topRun_leadingZeros (v : Word) (n : Nat) : TopRun v false n (leadingZeros v n) := by
  induction n with
  | zero => exact .nil
  | succ n ih =>
    rw [leadingZeros]
    split
    · next h => exact .of_stop h
    · next h => exact .of_run (Bool.eq_false_iff.mpr h) ih

theorem topRun_leadingOnes (v : Word) (n : Nat) : TopRun v true n (leadingOnes v n) := by
  induction n with
  | zero => exact .nil
  | succ n ih =>
    rw [leadingOnes]
    split
    · next h => exact .of_run h ih
    · next h => exact .of_stop (Bool.eq_false_iff.mpr h)

/-- A run's length fits in the word that is written. -/
theorem TopRun.toNat_ofNat {v : Word} {b : Bool} {k : Nat} (h : TopRun v b 32 k) : (BitVec.ofNat 32 k).toNat = k := by
  rw [BitVec.toNat_ofNat, Nat.mod_eq_of_lt (Nat.lt_of_le_of_lt h.le (by decide))]

/-- The frame and the run of an instruction that counts the equal bits from bit 31 down. -/
theorem TopRun.writes {v : Word} {b : Bool} {k : Nat} {i : Instr} {s : State} {r : Reg} (hk : TopRun v b 32 k)
    (h : exec i s = .next (s.advance.setX r (BitVec.ofNat 32 k))) :
    ∃ t w, exec i s = .next t ∧ w.toNat ≤ 32 ∧ (∀ i, 32 - w.toNat ≤ i → i < 32 → v.getLsbD i = b) ∧
      (w.toNat < 32 → v.getLsbD (31 - w.toNat) = !b) ∧ WritesReg s t r w := by
  refine ⟨_, BitVec.ofNat 32 k, h, ?_⟩
  rw [hk.toNat_ofNat]
  exact ⟨hk.le, hk.run, hk.stop, writesReg_advance_setX s r _⟩

/-! ## Byte and bit shuffles (R137 to R141) -/

/-- WSBH exchanges the bytes of each halfword: bit 3 of the position changes (R137). -/
theorem getLsbD_swapInHalves (v : Word) {i : Nat} (hi : i < 32) : (swapInHalves v).getLsbD i = v.getLsbD (i ^^^ 8) := by
  simp only [swapInHalves, BitVec.getLsbD_append, BitVec.getLsbD_extractLsb']
  interval_cases i <;> rfl

/-- WSBW reverses the bytes of the word: bits 3 and 4 of the position change (R138). -/
theorem getLsbD_swapBytes (v : Word) {i : Nat} (hi : i < 32) : (swapBytes v).getLsbD i = v.getLsbD (i ^^^ 24) := by
  simp only [swapBytes, BitVec.getLsbD_append, BitVec.getLsbD_extractLsb']
  interval_cases i <;> rfl

theorem getLsbD_reverse_word (v : Word) {i : Nat} (hi : i < 32) : v.reverse.getLsbD i = v.getLsbD (31 - i) := by
  rw [BitVec.getLsbD_reverse, BitVec.getMsbD_eq_getLsbD, decide_eq_true hi, Bool.true_and]

/-- The sign extension of the low `n` bits has their signed value (R139, R141). -/
theorem toInt_signExtend_low (v : Word) {n : Nat} (hn : n ≤ 32) :
    ((v.extractLsb' 0 n).signExtend 32).toInt =
      if 2 * (v.toNat % 2 ^ n) < 2 ^ n then ((v.toNat % 2 ^ n : Nat) : ℤ)
      else ((v.toNat % 2 ^ n : Nat) : ℤ) - (2 ^ n : Nat) := by
  rw [BitVec.toInt_signExtend_of_le hn, BitVec.toInt_eq_toNat_cond, BitVec.extractLsb'_toNat, Nat.shiftRight_zero]

theorem toInt_signExtend_byte (v : Word) : ((v.extractLsb' 0 8).signExtend 32).toInt =
    if v.toNat % 256 < 128 then (v.toNat % 256 : ℤ) else (v.toNat % 256 : ℤ) - 256 := by
  rw [toInt_signExtend_low v (by decide)]
  grind

theorem toInt_signExtend_half (v : Word) : ((v.extractLsb' 0 16).signExtend 32).toInt =
    if v.toNat % 65536 < 32768 then (v.toNat % 65536 : ℤ) else (v.toNat % 65536 : ℤ) - 65536 := by
  rw [toInt_signExtend_low v (by decide)]
  grind

/-- Settles O8: the run that each count measures, and where each shuffle takes its bits from. -/
theorem bitCountsAndShuffles : Obligations.BitCountsAndShuffles := by
  intro s rd rs rt
  refine ⟨?_, ?_, ?_, ?_, ?_, ?_, ?_⟩
  · exact (topRun_leadingZeros (s.x rs) 32).writes rfl
  · exact (topRun_leadingOnes (s.x rs) 32).writes rfl
  · exact writes_of_exec rfl fun i hi => getLsbD_swapInHalves (s.x rt) hi
  · exact writes_of_exec rfl fun i hi => getLsbD_swapBytes (s.x rt) hi
  · exact writes_of_exec rfl fun i hi => getLsbD_reverse_word (s.x rt) hi
  · exact writes_of_exec rfl (toInt_signExtend_byte (s.x rt))
  · exact writes_of_exec rfl (toInt_signExtend_half (s.x rt))

/-! ## Sums and overflow (R110, R123 to R126, R142, R143) -/

/-- The word `v` stands for the integer `z` modulo 2^32. -/
def Represents (v : Word) (z : ℤ) : Prop := (v.toInt - z) % 2 ^ 32 = 0

theorem represents_of_toInt_eq_bmod {v : Word} {z : ℤ} (h : v.toInt = z.bmod (2 ^ 32)) : Represents v z := by
  rw [Represents, h]
  exact Int.emod_eq_emod_iff_emod_sub_eq_zero.mp Int.bmod_emod

theorem represents_add (a b : Word) : Represents (a + b) (a.toInt + b.toInt) :=
  represents_of_toInt_eq_bmod (BitVec.toInt_add a b)

theorem represents_sub (a b : Word) : Represents (a - b) (a.toInt - b.toInt) :=
  represents_of_toInt_eq_bmod BitVec.toInt_sub

/-- A representative inside the signed range is the word's signed value. -/
theorem Represents.toInt_eq {v : Word} {z : ℤ} (h : Represents v z) (hlow : -2 ^ 31 ≤ z) (hhigh : z < 2 ^ 31) :
    v.toInt = z := by
  have hv : -2 ^ 31 ≤ v.toInt := BitVec.le_toInt v
  have hv' : v.toInt < 2 ^ 31 := BitVec.toInt_lt
  rw [Represents] at h
  omega

/-- The immediate of ADDI, ADDIU and SLTI keeps its signed value (R94). -/
theorem toInt_simm (imm : BitVec 16) : (simm imm).toInt = imm.toInt := BitVec.toInt_signExtend_of_le (by decide)

theorem overflows_iff (z : ℤ) : overflows z = true ↔ z < -2 ^ 31 ∨ 2 ^ 31 - 1 < z := by
  simp [overflows]

/-- Instruction `i` checks the exact result `z`, which `v` represents, and writes `v` to `r` (R110). -/
structure ChecksSum (i : Instr) (s : State) (r : Reg) (v : Word) (z : ℤ) : Prop where
  exec_eq : exec i s = s.writeChecked (overflows z) r v
  represents : Represents v z

theorem checksSum_add (s : State) (rd rs rt : Reg) :
    ChecksSum (.add rd rs rt) s rd (s.x rs + s.x rt) ((s.x rs).toInt + (s.x rt).toInt) := ⟨rfl, represents_add _ _⟩

theorem checksSum_sub (s : State) (rd rs rt : Reg) :
    ChecksSum (.sub rd rs rt) s rd (s.x rs - s.x rt) ((s.x rs).toInt - (s.x rt).toInt) := ⟨rfl, represents_sub _ _⟩

theorem checksSum_addi (s : State) (rt rs : Reg) (imm : BitVec 16) :
    ChecksSum (.addi rt rs imm) s rt (s.x rs + simm imm) ((s.x rs).toInt + imm.toInt) := by
  rw [← toInt_simm]
  exact ⟨rfl, represents_add _ _⟩

section
variable {i : Instr} {s : State} {r : Reg} {v : Word} {z : ℤ}

/-- Without overflow, or under `wrap`, the result is written (R110). -/
theorem ChecksSum.exec_write (h : ChecksSum i s r v z) (hc : overflows z = false ∨ s.par.overflowMode = .wrap) :
    exec i s = .next (s.advance.setX r v) := by
  obtain ⟨ho, hm, -⟩ | ⟨-, he⟩ := s.writeChecked_cases (overflows z) r v
  · simp [ho, hm] at hc
  · exact h.exec_eq.trans he

/-- An exact result that fits is written as it is. -/
theorem ChecksSum.writes_exact (h : ChecksSum i s r v z) (hlow : -2 ^ 31 ≤ z) (hhigh : z < 2 ^ 31) :
    ∃ t v, exec i s = .next t ∧ v.toInt = z ∧ WritesReg s t r v := by
  have hfits : overflows z = false := by
    rw [Bool.eq_false_iff, ne_eq, overflows_iff]
    omega
  exact writes_of_exec (h.exec_write (.inl hfits)) (h.represents.toInt_eq hlow hhigh)

/-- A result that does not fit halts or wraps, as `OVERFLOW_MODE` says (R110). -/
theorem ChecksSum.overflow_follows_mode (h : ChecksSum i s r v z) (hz : z < -2 ^ 31 ∨ 2 ^ 31 - 1 < z) :
    (s.par.overflowMode = .halt → ∃ t, exec i s = .next t ∧ Halts s t (.integerOverflow s.cpu.pc)) ∧
    (s.par.overflowMode = .wrap → ∃ t v, exec i s = .next t ∧ (v.toInt - z) % 2 ^ 32 = 0 ∧ WritesReg s t r v) := by
  refine ⟨fun hm => ?_, fun hm => writes_of_exec (h.exec_write (.inr hm)) h.represents⟩
  obtain ⟨-, -, he⟩ | ⟨hc, -⟩ := s.writeChecked_cases (overflows z) r v
  · exact ⟨_, h.exec_eq.trans he, halts_halted s _⟩
  · simp [(overflows_iff z).mpr hz, hm] at hc

end

theorem toNat_sub_add_mod (a b : Word) : ((a - b).toNat + b.toNat) % 2 ^ 32 = a.toNat := by
  rw [← BitVec.toNat_add, BitVec.sub_add_cancel]

/-- Settles O9: the unchecked sums as words, and the checked ones where the exact result is a word's signed value. -/
theorem sums : Obligations.Sums := by
  intro s rd rs rt imm
  refine ⟨?_, ?_, ?_, (checksSum_add s rd rs rt).writes_exact, (checksSum_sub s rd rs rt).writes_exact,
    (checksSum_addi s rt rs imm).writes_exact⟩
  · exact writes_of_exec rfl (BitVec.toNat_add (s.x rs) (s.x rt))
  · exact writes_of_exec rfl (toNat_sub_add_mod (s.x rs) (s.x rt))
  · exact writes_of_exec (v := s.x rs + simm imm) rfl (checksSum_addi s rt rs imm).represents

/-- Settles O10: each of the three checks the exact result that its entry names. -/
theorem overflowFollowsMode : Obligations.OverflowFollowsMode := by
  intro s rd rs rt imm
  simp only [List.forall_mem_cons, List.not_mem_nil, false_imp_iff, implies_true, and_true]
  exact ⟨(checksSum_add s rd rs rt).overflow_follows_mode, (checksSum_sub s rd rs rt).overflow_follows_mode,
    (checksSum_addi s rt rs imm).overflow_follows_mode⟩

/-! ## Bitwise logic (R127 to R130, R146 to R149) -/

/-- The immediate of ANDI, ORI and XORI has zeros above bit 15 (R94). -/
theorem getLsbD_zimm (imm : BitVec 16) {i : Nat} (hi : i < 32) : (zimm imm).getLsbD i = (decide (i < 16) && imm.getLsbD i) := by
  rw [zimm, BitVec.getLsbD_setWidth, decide_eq_true hi, Bool.true_and]
  by_cases h : i < 16
  · simp [h]
  · simp [h, BitVec.getLsbD_of_ge imm i (Nat.not_lt.mp h)]

theorem toNat_uimm (imm : BitVec 16) : (uimm imm).toNat = imm.toNat * 2 ^ 16 := by
  rw [uimm, BitVec.toNat_append, ← Nat.shiftLeft_eq]
  exact Nat.or_zero _

/-- Settles O11: the operations bit by bit, with the bits of the zero-extended immediate. -/
theorem bitwiseLogic : Obligations.BitwiseLogic := by
  intro s rd rs rt imm
  refine ⟨?_, ?_, ?_, ?_, ?_, ?_, ?_, ?_⟩
  · exact writes_of_exec rfl fun i _ => BitVec.getLsbD_and
  · exact writes_of_exec rfl fun i _ => BitVec.getLsbD_or
  · exact writes_of_exec rfl fun i _ => BitVec.getLsbD_xor
  · refine writes_of_exec rfl fun i hi => ?_
    rw [BitVec.getLsbD_not, BitVec.getLsbD_or, decide_eq_true hi, Bool.true_and]
  · refine writes_of_exec rfl fun i hi => ?_
    rw [BitVec.getLsbD_and, getLsbD_zimm imm hi, Bool.and_left_comm, Bool.and_assoc]
  · refine writes_of_exec rfl fun i hi => ?_
    rw [BitVec.getLsbD_or, getLsbD_zimm imm hi]
  · refine writes_of_exec rfl fun i hi => ?_
    rw [BitVec.getLsbD_xor, getLsbD_zimm imm hi]
  · exact writes_of_exec rfl (toNat_uimm imm)

/-! ## Comparisons (R131 to R134, R144, R145) -/

theorem toNat_boolWord (c : Bool) : (boolWord c).toNat = if c = true then 1 else 0 := by cases c <;> rfl

theorem toNat_boolWord_slt (a b : Word) : (boolWord (a.slt b)).toNat = if a.toInt < b.toInt then 1 else 0 := by
  rw [toNat_boolWord]
  simp only [BitVec.slt_iff_toInt_lt]

theorem toNat_boolWord_ult (a b : Word) : (boolWord (a.ult b)).toNat = if a.toNat < b.toNat then 1 else 0 := by
  rw [toNat_boolWord]
  simp only [BitVec.ult_iff_toNat_lt]

/-- A negative immediate is a large unsigned number (R145). -/
theorem toNat_simm (imm : BitVec 16) : (simm imm).toNat = if imm.msb then imm.toNat + 0xFFFF0000 else imm.toNat := by
  rw [simm, BitVec.toNat_signExtend, BitVec.toNat_setWidth_of_le (by decide)]
  split <;> rfl

theorem toInt_ite_slt_max (a b : Word) : (if b.slt a then a else b).toInt = max a.toInt b.toInt := by
  simp only [BitVec.slt_iff_toInt_lt]
  split <;> omega

theorem toInt_ite_slt_min (a b : Word) : (if a.slt b then a else b).toInt = min a.toInt b.toInt := by
  simp only [BitVec.slt_iff_toInt_lt]
  split <;> omega

/-- Settles O12: signed and unsigned comparison, of a register and of the sign-extended immediate. -/
theorem comparisons : Obligations.Comparisons := by
  intro s rd rs rt imm
  refine ⟨?_, ?_, ?_, ?_, ?_, ?_⟩
  · exact writes_of_exec rfl (toNat_boolWord_slt (s.x rs) (s.x rt))
  · exact writes_of_exec rfl (toNat_boolWord_ult (s.x rs) (s.x rt))
  · rw [← toInt_simm]
    exact writes_of_exec rfl (toNat_boolWord_slt (s.x rs) (simm imm))
  · rw [← toNat_simm]
    exact writes_of_exec rfl (toNat_boolWord_ult (s.x rs) (simm imm))
  · exact writes_of_exec rfl (toInt_ite_slt_max (s.x rs) (s.x rt))
  · exact writes_of_exec rfl (toInt_ite_slt_min (s.x rs) (s.x rt))

/-! ## Bit fields (R135, R136) -/

theorem toNat_lowMask {n : Nat} (hn : n ≤ 32) : (lowMask n).toNat = 2 ^ n - 1 := by
  have hpow : 2 ^ n ≤ 2 ^ 32 := Nat.pow_le_pow_right (by decide) hn
  rw [lowMask, BitVec.toNat_ofNat]
  exact Nat.mod_eq_of_lt (by have := Nat.two_pow_pos n; omega)

theorem lowMask_getLsbD {n : Nat} (hn : n ≤ 32) (i : Nat) : (lowMask n).getLsbD i = decide (i < n) := by
  rw [← BitVec.testBit_toNat, toNat_lowMask hn, Nat.testBit_two_pow_sub_one]

theorem toNat_extractField (v : Word) (pos : Nat) {n : Nat} (hn : n ≤ 32) :
    (extractField v pos n).toNat = v.toNat / 2 ^ pos % 2 ^ n := by
  rw [extractField, BitVec.toNat_and, toNat_lowMask hn, toNat_ushiftRight_eq, Nat.and_two_pow_sub_one_eq_mod]

theorem getLsbD_insertMask {pos n i : Nat} (hn : n ≤ 32) (hi : i < 32) :
    (insertMask pos n).getLsbD i = decide (pos ≤ i ∧ i < pos + n) := by
  rw [insertMask, BitVec.getLsbD_shiftLeft, lowMask_getLsbD hn, decide_eq_true hi, Bool.true_and, ← decide_not,
    ← Bool.decide_and]
  exact decide_eq_decide.mpr (by omega)

/-- INS takes the bits of its field from the low bits of the source and the others from the old word (R136). -/
theorem getLsbD_insertField (old v : Word) {pos n i : Nat} (hn : n ≤ 32) (hi : i < 32) :
    (insertField old v pos n).getLsbD i = if pos ≤ i ∧ i < pos + n then v.getLsbD (i - pos) else old.getLsbD i := by
  rw [insertField, BitVec.getLsbD_or, BitVec.getLsbD_and, BitVec.getLsbD_and, BitVec.getLsbD_not, BitVec.getLsbD_shiftLeft,
    getLsbD_insertMask hn hi]
  split
  · next h => simp [h, hi, Nat.not_lt.mpr h.1]
  · next h => simp [h, hi]

theorem exec_ext_write (rt rs : Reg) {pos : BitVec 5} {size : Nat} (s : State) (h : pos.toNat + size ≤ 32) :
    exec (.ext rt rs pos size) s = .next (s.advance.setX rt (extractField (s.x rs) pos.toNat size)) :=
  if_neg (Nat.not_lt.mpr h)

theorem exec_ext_halt (rt rs : Reg) {pos : BitVec 5} {size : Nat} (s : State) (h : 32 < pos.toNat + size) :
    exec (.ext rt rs pos size) s = .next (s.halted (.unpredictableOperand s.cpu.pc)) := if_pos h

theorem exec_ins_write (rt rs : Reg) {pos msb : BitVec 5} (s : State) (h : pos.toNat ≤ msb.toNat) :
    exec (.ins rt rs pos msb) s =
      .next (s.advance.setX rt (insertField (s.x rt) (s.x rs) pos.toNat (msb.toNat - pos.toNat + 1))) :=
  if_neg (Nat.not_lt.mpr h)

theorem exec_ins_halt (rt rs : Reg) {pos msb : BitVec 5} (s : State) (h : msb.toNat < pos.toNat) :
    exec (.ins rt rs pos msb) s = .next (s.halted (.unpredictableOperand s.cpu.pc)) := if_pos h

/-- Settles O13: the field as a number and bit by bit, and the two halts. -/
theorem bitFields : Obligations.BitFields := by
  intro s rt rs pos msb size
  refine ⟨fun h => ?_, fun h => ⟨_, exec_ext_halt rt rs s h, halts_halted s _⟩, fun h => ?_,
    fun h => ⟨_, exec_ins_halt rt rs s h, halts_halted s _⟩⟩
  · exact writes_of_exec (exec_ext_write rt rs s h) (toNat_extractField (s.x rs) pos.toNat (by omega))
  · refine writes_of_exec (exec_ins_write rt rs s h) fun i hi => ?_
    have hfield : (pos.toNat ≤ i ∧ i < pos.toNat + (msb.toNat - pos.toNat + 1)) ↔
        (pos.toNat ≤ i ∧ i ≤ msb.toNat) := by omega
    rw [getLsbD_insertField (s.x rt) (s.x rs) (by have := msb.isLt; omega) hi]
    simp only [hfield]

end Sys2Proof.Machine
end

section
/-! SUPPORT. Multiply and divide: the pair HI || LO as an integer modulo 2^64, the quotient and the remainder of each division, and
the frame of the write that carries them. -/

namespace Sys2Proof.Machine

/-! ## The pair HI || LO as an integer (R23, R154 to R159) -/

/-- The halves that `setAcc` writes make up the pair (R23). -/
theorem toNat_halves (p : DWord) : (p.extractLsb' 32 32).toNat * 2 ^ 32 + (p.extractLsb' 0 32).toNat = p.toNat := by
  have hp := p.isLt
  rw [BitVec.extractLsb'_toNat, BitVec.extractLsb'_toNat, Nat.shiftRight_eq_div_pow, Nat.shiftRight_zero]
  omega

theorem State.toNat_hilo (s : State) : s.hilo.toNat = s.cpu.hi.toNat * 2 ^ 32 + s.cpu.lo.toNat := by
  rw [State.hilo, BitVec.toNat_append, ← Nat.shiftLeft_add_eq_or_of_lt s.cpu.lo.isLt, Nat.shiftLeft_eq]

theorem toNat_ofInt_dword (z : ℤ) : ((BitVec.ofInt 64 z).toNat : ℤ) = z % 2 ^ 64 := by
  rw [BitVec.toNat_ofInt, Int.toNat_of_nonneg (Int.emod_nonneg z (by decide))]
  rfl

/-! `BitVec.ofInt 64` carries the exact products and sums to the model's. -/

theorem mulSigned_eq_ofInt (a b : Word) : mulSigned a b = BitVec.ofInt 64 (a.toInt * b.toInt) :=
  (BitVec.ofInt_mul a.toInt b.toInt).symm

theorem mulUnsigned_eq_ofInt (a b : Word) : mulUnsigned a b = BitVec.ofInt 64 (a.toNat * b.toNat) := by
  rw [mulUnsigned, BitVec.ofInt_mul, BitVec.ofInt_natCast, BitVec.ofInt_natCast, BitVec.ofNat_toNat, BitVec.ofNat_toNat]

theorem State.hilo_eq_ofInt (s : State) : s.hilo = BitVec.ofInt 64 (s.cpu.hi.toNat * 2 ^ 32 + s.cpu.lo.toNat) := by
  calc s.hilo = BitVec.ofInt 64 (s.hilo.toNat : ℤ) := by rw [BitVec.ofInt_natCast, BitVec.ofNat_toNat, BitVec.setWidth_eq]
    _ = _ := by rw [s.toNat_hilo]; norm_cast

theorem ofInt_sub_dword (x y : ℤ) : BitVec.ofInt 64 (x - y) = BitVec.ofInt 64 x - BitVec.ofInt 64 y := by
  rw [Int.sub_eq_add_neg, BitVec.ofInt_add, BitVec.ofInt_neg, BitVec.sub_eq_add_neg]

/-- An instruction that answers with the pair that is `z` modulo 2^64. -/
theorem writesAcc_of_exec {i : Instr} {s : State} {p : DWord} {z : ℤ} (h : exec i s = .next (s.advance.setAcc p))
    (hp : p = BitVec.ofInt 64 z) :
    ∃ t h l, exec i s = .next t ∧ (h.toNat * 2 ^ 32 + l.toNat : ℤ) = z % 2 ^ 64 ∧ WritesHiLo s t h l := by
  refine ⟨_, p.extractLsb' 32 32, p.extractLsb' 0 32, h, ?_, writesHiLo_setHiLo s _ _⟩
  rw [← toNat_ofInt_dword, ← hp]
  exact mod_cast toNat_halves p

/-- Settles O14: each entry's integer, under `BitVec.ofInt 64`, is the pair that the model writes. -/
theorem multiplyAccumulate : Obligations.MultiplyAccumulate := by
  intro s rs rt
  simp only [List.forall_mem_cons, List.not_mem_nil, false_imp_iff, implies_true, and_true]
  refine ⟨?_, ?_, ?_, ?_, ?_, ?_⟩
  · exact writesAcc_of_exec rfl (mulSigned_eq_ofInt (s.x rs) (s.x rt))
  · exact writesAcc_of_exec rfl (mulUnsigned_eq_ofInt (s.x rs) (s.x rt))
  · refine writesAcc_of_exec rfl ?_
    rw [BitVec.ofInt_add, s.hilo_eq_ofInt, mulSigned_eq_ofInt]
  · refine writesAcc_of_exec rfl ?_
    rw [BitVec.ofInt_add, s.hilo_eq_ofInt, mulUnsigned_eq_ofInt]
  · refine writesAcc_of_exec rfl ?_
    rw [ofInt_sub_dword, s.hilo_eq_ofInt, mulSigned_eq_ofInt]
  · refine writesAcc_of_exec rfl ?_
    rw [ofInt_sub_dword, s.hilo_eq_ofInt, mulUnsigned_eq_ofInt]

/-! ## Signed division (R160) -/

/-- An instruction that answers with the write of a pair of words to HI and LO. -/
theorem writesHiLo_of_exec {i : Instr} {s : State} {p : Word × Word} {h l : Word}
    (hexec : exec i s = .next (s.advance.setHiLo p.1 p.2)) (hp : p = (h, l)) :
    ∃ t, exec i s = .next t ∧ WritesHiLo s t h l := by
  subst hp
  exact ⟨_, hexec, writesHiLo_setHiLo s h l⟩

theorem exec_div (rs rt : Reg) (s : State) : exec (.div rs rt) s =
    .next (s.advance.setHiLo (divSigned (s.x rs) (s.x rt)).1 (divSigned (s.x rs) (s.x rt)).2) := rfl

theorem toInt_eq_min_iff (v : Word) : v.toInt = -2 ^ 31 ↔ v = intMin := BitVec.toInt_inj (y := intMin)

theorem toInt_eq_neg_one_iff (v : Word) : v.toInt = -1 ↔ v = 0xFFFFFFFF#32 := BitVec.toInt_inj (y := 0xFFFFFFFF#32)

theorem divSigned_zero (a : Word) : divSigned a 0#32 = (a, if 0 ≤ a.toInt then 0xFFFFFFFF#32 else 1#32) := if_pos rfl

theorem divSigned_intMin_neg_one : divSigned intMin 0xFFFFFFFF#32 = (0#32, intMin) := rfl

/-- Away from its two corners, DIV is the division of bit vectors that rounds towards zero. -/
theorem divSigned_eq_srem_sdiv {a b : Word} (hb : b ≠ 0#32) (hc : ¬ (a = intMin ∧ b = 0xFFFFFFFF#32)) :
    divSigned a b = (a.srem b, a.sdiv b) := by
  have hquot : (a.sdiv b).toInt = a.toInt.tdiv b.toInt := BitVec.toInt_sdiv_of_ne_or_ne a b (not_and_or.mp hc)
  rw [divSigned, if_neg hb, if_neg hc, ← BitVec.toInt_srem, ← hquot, BitVec.ofInt_toInt, BitVec.ofInt_toInt]

theorem abs_tmod_lt {b : ℤ} (a : ℤ) (hb : b ≠ 0) : |a.tmod b| < |b| := by
  rw [Int.abs_eq_natAbs, Int.abs_eq_natAbs, Int.natAbs_tmod, Int.ofNat_lt]
  exact Nat.mod_lt _ (Int.natAbs_pos.mpr hb)

/-- The remainder has the sign of the dividend. -/
theorem tmod_mul_self_nonneg (a b : ℤ) : 0 ≤ a.tmod b * a := by
  obtain ha | ha := le_total 0 a
  · exact mul_nonneg (Int.tmod_nonneg b ha) ha
  · have hneg : 0 ≤ (-a).tmod b := Int.tmod_nonneg b (Int.neg_nonneg.mpr ha)
    rw [Int.neg_tmod] at hneg
    exact mul_nonneg_of_nonpos_of_nonpos (Int.neg_nonneg.mp hneg) ha

/-! ## Unsigned division (R161) -/

theorem exec_divu (rs rt : Reg) (s : State) : exec (.divu rs rt) s =
    .next (s.advance.setHiLo (divUnsigned s.par (s.x rs) (s.x rt)).1 (divUnsigned s.par (s.x rs) (s.x rt)).2) := rfl

theorem divUnsigned_zero (p : Params) (a : Word) : divUnsigned p a 0#32 = divuByZero p a := if_pos rfl

theorem divUnsigned_eq_mod_div (p : Params) (a : Word) {b : Word} (hb : b ≠ 0#32) :
    divUnsigned p a b = (a % b, a / b) := by
  rw [divUnsigned, if_neg hb, ← BitVec.toNat_umod, ← BitVec.toNat_udiv, BitVec.ofNat_toNat, BitVec.ofNat_toNat,
    BitVec.setWidth_eq, BitVec.setWidth_eq]

section
variable {p : Params} (a : Word)

/-! DIVU by zero under each value of `DIVU_BY_ZERO`. -/

theorem divuByZero_reference (h : p.divuByZero = .reference) : divuByZero p a = (a, 0xFFFFFFFF#32) := by
  rw [divuByZero, h]

theorem divuByZero_halfword (h : p.divuByZero = .halfword) :
    divuByZero p a = (a, if a.toNat ≤ 0xFFFF then 0x0000FFFF#32 else 0xFFFFFFFF#32) := by
  rw [divuByZero, h]

theorem divuByZero_free (h : p.divuByZero = .free) : divuByZero p a = Config.divuByZero a := by
  rw [divuByZero, h]

end

/-- Settles O15: the two divisions by a divisor other than 0, and then the corners. -/
theorem divide : Obligations.Divide := by
  intro s rs rt
  simp only [ne_eq, toNat_eq_zero_iff, toInt_eq_min_iff, toInt_eq_neg_one_iff]
  refine ⟨fun hb hc => ?_, fun hb => ?_, fun hb => ?_, fun ha hb => ?_, fun hb => ?_⟩
  · obtain ⟨t, hexec, hwrites⟩ := writesHiLo_of_exec (exec_div rs rt s) (divSigned_eq_srem_sdiv hb hc)
    have hquot := BitVec.toInt_sdiv_of_ne_or_ne (s.x rs) (s.x rt) (not_and_or.mp hc)
    have hdivisor : (s.x rt).toInt ≠ 0 := fun h => hb (BitVec.toInt_inj (y := 0#32).mp h)
    refine ⟨t, _, _, hexec, ?_, ?_, ?_, hwrites⟩ <;> rw [BitVec.toInt_srem]
    · rw [hquot, Int.tdiv_mul_add_tmod]
    · exact abs_tmod_lt _ hdivisor
    · exact tmod_mul_self_nonneg _ _
  · obtain ⟨t, hexec, hwrites⟩ := writesHiLo_of_exec (exec_divu rs rt s) (divUnsigned_eq_mod_div s.par (s.x rs) hb)
    have hdivisor : 0 < (s.x rt).toNat := Nat.pos_of_ne_zero (mt (toNat_eq_zero_iff _).mp hb)
    exact ⟨t, _, _, hexec, (Nat.div_add_mod' _ _).symm, Nat.mod_lt _ hdivisor, hwrites⟩
  · exact writesHiLo_of_exec (exec_div rs rt s) (by rw [hb, divSigned_zero])
  · exact writesHiLo_of_exec (exec_div rs rt s) (by rw [ha, hb, divSigned_intMin_neg_one]; rfl)
  · have hzero : divUnsigned s.par (s.x rs) (s.x rt) = divuByZero s.par (s.x rs) := by rw [hb, divUnsigned_zero]
    obtain ⟨t, hexec, hwrites⟩ := writesHiLo_of_exec (exec_divu rs rt s) hzero
    refine ⟨t, _, _, hexec, hwrites, fun hp => ?_, fun hp => ?_, fun hp => ?_⟩
    · exact Prod.ext_iff.mp (divuByZero_reference _ hp)
    · exact Prod.ext_iff.mp (divuByZero_halfword _ hp)
    · exact divuByZero_free _ hp

end Sys2Proof.Machine
end

section
/-! SUPPORT. The system instructions: entry to the host and BREAK as stops after the pc advance, CACHE and SYNC as the pc advance
alone. -/

namespace Sys2Proof.Machine

/-- The pc advance alone, in the frame of a write to register 0 (R21, R25). -/
theorem writesReg_advance_zero (s : State) : WritesReg s s.advance 0#5 0#32 := by
  have h := writesReg_advance s 0#5
  rwa [State.x_zero_reg s 0#5 rfl] at h

/-- Entry to the host after the pc advance (R258, R286). -/
theorem stopsAs_enterHost (s : State) (e : HostEvent) : StopsAs s (s.advance.enterHost e) (.inHost e) :=
  stopsAs_advance s (.inHost e)

theorem exec_syscall (code : BitVec 20) (s : State) :
    exec (.syscall code) s = .next (s.advance.enterHost (.hleCall code)) := rfl

theorem exec_brk (code : BitVec 20) (s : State) : exec (.brk code) s = .next (s.halted (.break_ code s.cpu.pc)) := rfl

theorem exec_cache (op : BitVec 5) (base : Reg) (off : BitVec 16) (s : State) :
    exec (.cache op base off) s = .next s.advance := rfl

theorem exec_sync (stype : BitVec 5) (s : State) : exec (.sync stype) s = .next s.advance := rfl

/-- Settles O30: two stops after the pc advance, and two instructions that are the pc advance alone. -/
theorem systemInstructions : Obligations.SystemInstructions := by
  intro s code op stype base off
  refine ⟨?_, ?_, ?_, ?_⟩
  · exact ⟨_, exec_syscall code s, stopsAs_enterHost s _⟩
  · exact ⟨_, exec_brk code s, halts_halted s _⟩
  · exact ⟨_, exec_cache op base off s, writesReg_advance_zero s⟩
  · exact ⟨_, exec_sync stype s, writesReg_advance_zero s⟩

end Sys2Proof.Machine
end

section
/-! SUPPORT. Branches and jumps: every control transfer answers with `State.controlTransfer`, which in a delay slot is the halt of
R190 and outside one a branch with the link that the instruction has (`State.linked`). -/

namespace Sys2Proof.Machine

/-! ## Inside and outside a delay slot (R190) -/

/-- In a delay slot what the transfer would have left, the link included, is dropped. -/
theorem State.controlTransfer_inSlot {s : State} (hds : s.cpu.ds = true) (u : State) :
    s.controlTransfer u = .next (s.halted (.branchInDelaySlot s.cpu.pc)) := if_pos hds

theorem State.controlTransfer_outsideSlot {s : State} (hds : s.cpu.ds = false) (u : State) :
    s.controlTransfer u = .next u := if_neg (ne_true_of_eq_false hds)

/-- Every control transfer goes through the delay-slot check: the ordinary branches, the likely ones, those with a link, the jumps. -/
theorem exec_of_transfersControl {i : Instr} (hi : transfersControl i = true) (s : State) :
    ∃ u, exec i s = s.controlTransfer u := by
  cases i <;> cases hi
  case beq | bne | blez | bgtz | bltz | bgez | bc1f | bc1t => exact ⟨_, rfl⟩
  case beql | bnel | blezl | bgtzl | bltzl | bgezl | bc1fl | bc1tl => exact ⟨_, rfl⟩
  case bltzal | bgezal | bltzall | bgezall => exact ⟨_, rfl⟩
  case j | jal | jr | jalr => exact ⟨_, rfl⟩

/-- Settles O23: the delay-slot check comes first in every control transfer. -/
theorem transferInDelaySlotHalts : Obligations.TransferInDelaySlotHalts := by
  intro s i hds hi
  obtain ⟨u, hexec⟩ := exec_of_transfersControl hi s
  exact ⟨_, hexec.trans (State.controlTransfer_inSlot hds u), halts_halted s _⟩

/-! ## The three ends of a transfer, with a link or without (R190 to R194) -/

section
variable {i : Instr} {s : State} {link : Option Reg} {c : Bool} {a : Word}

/-- A jump goes to its target after the delay slot. -/
theorem transfers_of_jump (hds : s.cpu.ds = false) (h : exec i s = s.controlTransfer ((s.linked link).branchTo a)) :
    ∃ t, exec i s = .next t ∧ Transfers s t link s.cpu.nextPc a true := by
  refine ⟨_, h.trans (State.controlTransfer_outsideSlot hds _), ?_⟩
  cases link with
  | none => exact transfers_branchTo s a
  | some r => exact transfers_link_branchTo s r a

/-- An ordinary branch runs the delay slot, and then goes to the target or past the slot. -/
theorem transfers_of_branch (hds : s.cpu.ds = false) (h : exec i s = s.controlTransfer ((s.linked link).branchIf c a)) :
    ∃ t, exec i s = .next t ∧ Transfers s t link s.cpu.nextPc (if c then a else s.cpu.nextPc + 4#32) true := by
  refine ⟨_, h.trans (State.controlTransfer_outsideSlot hds _), ?_⟩
  cases link with
  | none => exact transfers_branchIf s c a
  | some r => exact transfers_link_branchIf s r c a

/-- A likely branch is a jump where its condition holds; where it does not, it skips the delay slot. -/
theorem transfers_of_branchLikely (hds : s.cpu.ds = false)
    (h : exec i s = s.controlTransfer ((s.linked link).branchLikelyIf c a)) :
    ∃ t, exec i s = .next t ∧
      if c then Transfers s t link s.cpu.nextPc a true
      else Transfers s t link (s.cpu.nextPc + 4#32) (s.cpu.nextPc + 8#32) false := by
  cases c with
  | true => exact transfers_of_jump hds h
  | false =>
    refine ⟨_, h.trans (State.controlTransfer_outsideSlot hds _), ?_⟩
    cases link with
    | none => exact transfers_skipDelaySlot s
    | some r => exact transfers_link_skipDelaySlot s r

end

/-! ## The obligations -/

/-- Settles O20: each entry is an ordinary branch without a link, on the condition that the entry names. -/
theorem ordinaryBranches : Obligations.OrdinaryBranches := by
  intro s rs rt off hds
  simp only [List.forall_mem_cons, List.not_mem_nil, false_imp_iff, implies_true, and_true]
  refine ⟨?beq, ?bne, ?blez, ?bgtz, ?bltz, ?bgez, ?bc1f, ?bc1t⟩
  case beq | bne | blez | bgtz | bltz | bgez | bc1f | bc1t => exact transfers_of_branch hds rfl

/-- Settles O21: each entry is a likely branch without a link, on the condition that the entry names. -/
theorem likelyBranches : Obligations.LikelyBranches := by
  intro s rs rt off hds
  simp only [List.forall_mem_cons, List.not_mem_nil, false_imp_iff, implies_true, and_true]
  refine ⟨?beql, ?bnel, ?blezl, ?bgtzl, ?bltzl, ?bgezl, ?bc1fl, ?bc1tl⟩
  case beql | bnel | blezl | bgtzl | bltzl | bgezl | bc1fl | bc1tl => exact transfers_of_branchLikely hds rfl

/-- Settles O22: the REGIMM branches link register 31, JALR the one it names, and J and JR none. -/
theorem linkingBranchesAndJumps : Obligations.LinkingBranchesAndJumps := by
  intro s rd rs off target hds
  simp only [List.forall_mem_cons, List.not_mem_nil, false_imp_iff, implies_true, and_true]
  refine ⟨⟨?bltzal, ?bgezal⟩, ⟨?bltzall, ?bgezall⟩, ?j, ?jal, ?jr, ?jalr⟩
  case bltzal | bgezal => exact transfers_of_branch hds rfl
  case bltzall | bgezall => exact transfers_of_branchLikely hds rfl
  case j | jal | jr | jalr => exact transfers_of_jump hds rfl

end Sys2Proof.Machine
end

section
/-! SUPPORT. Binary32 encodings: the fields of a word as numbers, what `fpDecode` makes of each class of words, and the number that
a decoded word stands for. -/

namespace Sys2Proof.Machine

/-! ## The fields of an encoding (R11) -/

theorem fpExponent_eq (v : Word) : fpExponent v = v.toNat / 2 ^ 23 % 2 ^ 8 := by
  simp [fpExponent, BitVec.extractLsb'_toNat, Nat.shiftRight_eq_div_pow]

theorem fpFraction_eq (v : Word) : fpFraction v = v.toNat % 2 ^ 23 := by
  simp [fpFraction, BitVec.extractLsb'_toNat]

theorem word_msb_eq (v : Word) : v.msb = decide (2 ^ 31 ≤ v.toNat) := BitVec.msb_eq_decide v

theorem fpExponent_lt (v : Word) : fpExponent v < 256 := (v.extractLsb' 23 8).isLt

theorem fpFraction_lt (v : Word) : fpFraction v < 2 ^ 23 := (v.extractLsb' 0 23).isLt

/-- A word is its sign bit, its exponent field and its fraction field. -/
theorem toNat_fpFields (v : Word) : v.toNat = v.msb.toNat * 2 ^ 31 + fpExponent v * 2 ^ 23 + fpFraction v := by
  have := v.isLt
  rw [fpExponent_eq, fpFraction_eq, word_msb_eq]
  by_cases h : 2 ^ 31 ≤ v.toNat
  · simp only [h, decide_true, Bool.toNat_true]; omega
  · simp only [h, decide_false, Bool.toNat_false]; omega

theorem word_ext_fpFields {v w : Word} (hs : v.msb = w.msb) (he : fpExponent v = fpExponent w)
    (hf : fpFraction v = fpFraction w) : v = w := by
  apply BitVec.eq_of_toNat_eq
  rw [toNat_fpFields v, toNat_fpFields w, hs, he, hf]

theorem fpExponent_eq_iff (v : Word) (e : Nat) (he : e < 2 ^ 8 := by decide) :
    v.extractLsb' 23 8 = BitVec.ofNat 8 e ↔ fpExponent v = e := by
  rw [← BitVec.toNat_inj, BitVec.toNat_ofNat, Nat.mod_eq_of_lt he]
  rfl

theorem fpFraction_eq_zero_iff (v : Word) : v.extractLsb' 0 23 = 0#23 ↔ fpFraction v = 0 := by
  rw [← BitVec.toNat_inj]
  rfl

/-! ## The classes of encodings -/

theorem fpIsNan_iff (v : Word) : fpIsNan v ↔ fpExponent v = 255 ∧ fpFraction v ≠ 0 := by
  rw [fpIsNan, fpExponent_eq_iff v 255, Ne, fpFraction_eq_zero_iff]

theorem fpIsInf_iff (v : Word) : fpIsInf v ↔ fpExponent v = 255 ∧ fpFraction v = 0 := by
  rw [fpIsInf, fpExponent_eq_iff v 255, fpFraction_eq_zero_iff]

theorem fpIsZero_iff (v : Word) : fpIsZero v ↔ fpExponent v = 0 ∧ fpFraction v = 0 := by
  have hmask : (v &&& 0x7FFFFFFF#32).toNat = v.toNat % 2 ^ 31 := by
    rw [BitVec.toNat_and]
    exact Nat.and_two_pow_sub_one_eq_mod v.toNat 31
  have hfields := toNat_fpFields v
  have he := fpExponent_lt v
  have hf := fpFraction_lt v
  rw [fpIsZero, ← BitVec.toNat_inj, hmask, BitVec.toNat_ofNat]
  omega

theorem fpDecode_eq_nan_iff (v : Word) : fpDecode v = .nan ↔ fpIsNan v := by
  rw [fpIsNan_iff, fpDecode]
  split
  · split <;> simp_all
  · split <;> simp_all

theorem fpDecode_eq_inf_iff (v : Word) (neg : Bool) : fpDecode v = .inf neg ↔ fpIsInf v ∧ v.msb = neg := by
  rw [fpIsInf_iff, fpDecode]
  split
  · split <;> simp_all
  · split <;> simp_all

/-- What a decoded finite number keeps: its sign bit, and the bounds of a binary32 significand and exponent. -/
theorem fpDecode_fin_bounds {v : Word} {neg : Bool} {m : Nat} {e : Int} (h : fpDecode v = .fin neg m e) :
    v.msb = neg ∧ m < 2 ^ 24 ∧ -149 ≤ e ∧ e ≤ 104 := by
  have he := fpExponent_lt v
  have hf := fpFraction_lt v
  rw [fpDecode] at h
  split at h
  · split at h <;> cases h
  · split at h <;> obtain ⟨rfl, rfl, rfl⟩ := Fp.fin.inj h <;> refine ⟨rfl, ?_, ?_, ?_⟩ <;> omega

/-- The significand of a finite number is 0 for a zero alone. -/
theorem fpIsZero_iff_of_fin {v : Word} {neg : Bool} {m : Nat} {e : Int} (h : fpDecode v = .fin neg m e) :
    fpIsZero v ↔ m = 0 := by
  rw [fpIsZero_iff]
  rw [fpDecode] at h
  split at h
  · split at h <;> cases h
  · split at h <;> obtain ⟨-, rfl, -⟩ := Fp.fin.inj h <;> omega

theorem fpDecode_of_zero {v : Word} (h : fpIsZero v) : fpDecode v = .fin v.msb 0 (-149) := by
  obtain ⟨he, hf⟩ := (fpIsZero_iff v).mp h
  rw [fpDecode, he, hf]
  rfl

/-! ## The number of an encoding -/

/-- The rational number that a decoded word stands for; `none` for an infinity or a NaN. -/
def Fp.value (a : Fp) : Option ℚ :=
  match a with
  | .fin neg m e => some (signedNat neg m * 2 ^ e)
  | _ => none

theorem fpValue_eq (v : Word) : fpValue v = (fpDecode v).value := by
  have hsign (m : Nat) : ((signedNat v.msb m : ℤ) : ℚ) = (if v.msb then -1 else 1) * m := by
    cases v.msb <;> simp [signedNat]
  change (if fpExponent v = 255 then none else if fpExponent v = 0 then some (_ * (fpFraction v : ℚ) / 2 ^ 149)
    else some (_ * (2 ^ 23 + (fpFraction v : ℚ)) * 2 ^ fpExponent v / 2 ^ 150)) = _
  rw [fpDecode]
  split
  · split <;> rfl
  · split
    · rw [Fp.value, hsign, zpow_neg, div_eq_mul_inv, zpow_ofNat]
    · rw [Fp.value, hsign, zpow_sub₀ two_ne_zero, zpow_natCast, zpow_ofNat]
      push_cast
      exact congrArg some (by ring)

/-- A finite number is decoded to a sign, a significand and an exponent with its value. -/
theorem fpDecode_of_fpValue {v : Word} {x : ℚ} (h : fpValue v = some x) :
    ∃ m e, fpDecode v = .fin v.msb m e ∧ x = signedNat v.msb m * 2 ^ e := by
  rw [fpValue_eq] at h
  cases hd : fpDecode v with
  | nan => rw [hd] at h; cases h
  | inf neg => rw [hd] at h; cases h
  | fin neg m e =>
    obtain rfl := (fpDecode_fin_bounds hd).1
    rw [hd] at h
    exact ⟨m, e, rfl, (Option.some.inj h).symm⟩

/-- Every encoding is a NaN, an infinity or a finite number. -/
theorem fpClasses (v : Word) : fpIsNan v ∨ fpIsInf v ∨ ∃ x, fpValue v = some x := by
  rw [← fpDecode_eq_nan_iff, fpValue_eq]
  cases hd : fpDecode v with
  | nan => exact .inl rfl
  | inf neg => exact .inr (.inl ((fpDecode_eq_inf_iff v neg).mp hd).1)
  | fin neg m e => exact .inr (.inr ⟨_, rfl⟩)

theorem fpDecode_of_inf {v : Word} (h : fpIsInf v) : fpDecode v = .inf v.msb := (fpDecode_eq_inf_iff v _).mpr ⟨h, rfl⟩

theorem fpDecode_of_nan {v : Word} (h : fpIsNan v) : fpDecode v = .nan := (fpDecode_eq_nan_iff v).mpr h

theorem fpValue_of_inf {v : Word} (h : fpIsInf v) : fpValue v = none := by rw [fpValue_eq, fpDecode_of_inf h]; rfl

theorem not_fpIsNan_of_inf {v : Word} (h : fpIsInf v) : ¬ fpIsNan v := by
  rw [← fpDecode_eq_nan_iff, fpDecode_of_inf h]
  exact nofun

theorem not_fpIsNan_of_value {v : Word} {x : ℚ} (h : fpValue v = some x) : ¬ fpIsNan v := by
  obtain ⟨m, e, hd, -⟩ := fpDecode_of_fpValue h
  rw [← fpDecode_eq_nan_iff, hd]
  exact nofun

theorem abs_signedNat (neg : Bool) (m : Nat) : |signedNat neg m| = m := by cases neg <;> simp [signedNat]

end Sys2Proof.Machine
end

section
/-! SUPPORT. FPU moves as writes of raw bits, and the compares: the model's key orders the encodings as R241 does, and a compare
writes C alone. -/

namespace Sys2Proof.Machine

/-! ## Raw moves (R216 to R219, R229 to R231) -/

theorem exec_mfc1 (rt : Reg) (fs : FReg) (s : State) : exec (.mfc1 rt fs) s = .next (s.advance.setX rt (s.f fs)) := rfl

theorem exec_mtc1 (rt : Reg) (fs : FReg) (s : State) : exec (.mtc1 rt fs) s = .next (s.advance.setF fs (s.x rt)) := rfl

theorem exec_movS (fd fs : FReg) (s : State) : exec (.movS fd fs) s = .next (s.advance.setF fd (s.f fs)) := rfl

theorem exec_absS (fd fs : FReg) (s : State) : exec (.absS fd fs) s = .next (s.advance.setF fd (s.f fs &&& 0x7FFFFFFF#32)) :=
  rfl

theorem exec_negS (fd fs : FReg) (s : State) : exec (.negS fd fs) s = .next (s.advance.setF fd (s.f fs ^^^ 0x80000000#32)) :=
  rfl

theorem exec_cfc1_status (rt : Reg) (s : State) :
    exec (.cfc1 rt 31#5) s = .next ((s.advance.setX rt (fcrRead s.cpu.fcr31 (Config.draw s.draws))).drew 1) := rfl

theorem exec_cfc1_identity (rt : Reg) (s : State) : exec (.cfc1 rt 0#5) s = .next (s.advance.setX rt s.par.fcr0) := rfl

theorem exec_ctc1_status (rt : Reg) (s : State) : exec (.ctc1 rt 31#5) s = .next (s.advance.setFcr31 (s.x rt)) := rfl

theorem getLsbD_clear_sign (v : Word) (i : Nat) : (v &&& 0x7FFFFFFF#32).getLsbD i = (decide (i < 31) && v.getLsbD i) := by
  have hmask : (0x7FFFFFFF#32 : Word).getLsbD i = decide (i < 31) := lowMask_getLsbD (n := 31) (by decide) i
  rw [BitVec.getLsbD_and, hmask, Bool.and_comm]

theorem getLsbD_signMask (i : Nat) : (0x80000000#32 : Word).getLsbD i = decide (i = 31) := by
  rw [show (0x80000000#32 : Word) = BitVec.twoPow 32 31 from rfl, BitVec.getLsbD_twoPow]
  simp [eq_comm]

theorem getLsbD_flip_sign (v : Word) (i : Nat) : (v ^^^ 0x80000000#32).getLsbD i = (decide (i = 31) != v.getLsbD i) := by
  rw [BitVec.getLsbD_xor, getLsbD_signMask, Bool.xor_comm]

/-- The bits of FCR31 that CFC1 reads as stored: RM and C (R32). -/
theorem getLsbD_statusMask {i : Nat} (hi : i < 32) : (0x00800003#32 : Word).getLsbD i = decide (i < 2 ∨ i = 23) := by
  interval_cases i <;> rfl

theorem getLsbD_fcrRead (v d : Word) {i : Nat} (hi : i < 32) :
    (fcrRead v d).getLsbD i = if i < 2 ∨ i = 23 then v.getLsbD i else d.getLsbD i := by
  rw [fcrRead, BitVec.getLsbD_or, BitVec.getLsbD_and, BitVec.getLsbD_and, BitVec.getLsbD_not, getLsbD_statusMask hi]
  split
  · rename_i h
    simp only [h, decide_true, Bool.and_true, Bool.not_true, Bool.and_false, Bool.or_false]
  · rename_i h
    simp only [h, hi, decide_true, decide_false, Bool.not_false, Bool.and_true, Bool.and_false, Bool.false_or]

/-- Settles O24: each move as its write, and the bits of the word that it writes. -/
theorem fpuMoves : Obligations.FpuMoves := by
  intro s rt fs fd
  refine ⟨?mfc1, ?mtc1, ?movS, ?absS, ?negS, ?cfc1_status, ?cfc1_identity, ?ctc1⟩
  case mfc1 => exact ⟨_, exec_mfc1 rt fs s, writesReg_advance_setX s rt _⟩
  case mtc1 => exact ⟨_, exec_mtc1 rt fs s, writesFpr_advance_setF s fs _⟩
  case movS => exact ⟨_, exec_movS fd fs s, writesFpr_advance_setF s fd _⟩
  case absS => exact ⟨_, _, exec_absS fd fs s, fun i _ => getLsbD_clear_sign _ i, writesFpr_advance_setF s fd _⟩
  case negS => exact ⟨_, _, exec_negS fd fs s, fun i _ => getLsbD_flip_sign _ i, writesFpr_advance_setF s fd _⟩
  case cfc1_status =>
    refine ⟨_, _, exec_cfc1_status rt s, ?_, ?_, fun i hlow hi hc => ?_, by simp, writesReg_setX s rt _ 1⟩
    · apply BitVec.eq_of_getLsbD_eq
      intro i hi
      rw [BitVec.getLsbD_extractLsb', BitVec.getLsbD_extractLsb', Nat.zero_add, getLsbD_fcrRead _ _ (by omega),
        if_pos (Or.inl hi)]
    · rw [getLsbD_fcrRead _ _ (by decide), if_pos (Or.inr rfl)]
    · rw [getLsbD_fcrRead _ _ hi, if_neg (by omega)]
  case cfc1_identity => exact ⟨_, exec_cfc1_identity rt s, writesReg_advance_setX s rt _⟩
  case ctc1 => exact ⟨_, exec_ctc1_status rt s, writesFcr31_setFcr31 s _⟩

/-! ## Comparison (R240, R241) -/

theorem fpUnordered_iff (a b : Word) : fpUnordered a b = true ↔ fpIsNan a ∨ fpIsNan b := by
  simp [fpUnordered, fpDecode_eq_nan_iff]

/-- The key of an infinity, beyond every finite key. -/
theorem fpKey_of_inf {v : Word} (h : fpIsInf v) : (fpDecode v).key = if v.msb then -2 ^ 300 else 2 ^ 300 := by
  rw [fpDecode_of_inf h]
  simp only [Fp.key, signedNat, Nat.cast_pow, Nat.cast_ofNat]

theorem fpKey_lt_iff_of_inf {a b : Word} (ha : fpIsInf a) (hb : fpIsInf b) :
    (fpDecode a).key < (fpDecode b).key ↔ a.msb = true ∧ b.msb = false := by
  have hpos : (0 : ℤ) < 2 ^ 300 := by positivity
  rw [fpKey_of_inf ha, fpKey_of_inf hb]
  generalize (2 : ℤ) ^ 300 = k at hpos ⊢
  cases a.msb <;> cases b.msb <;> simp <;> omega

theorem fpKey_eq_iff_of_inf {a b : Word} (ha : fpIsInf a) (hb : fpIsInf b) :
    (fpDecode a).key = (fpDecode b).key ↔ a.msb = b.msb := by
  have hpos : (0 : ℤ) < 2 ^ 300 := by positivity
  rw [fpKey_of_inf ha, fpKey_of_inf hb]
  generalize (2 : ℤ) ^ 300 = k at hpos ⊢
  cases a.msb <;> cases b.msb <;> simp <;> omega

theorem fpKey_of_value {v : Word} {x : ℚ} (h : fpValue v = some x) : ((fpDecode v).key : ℚ) = x * 2 ^ 149 := by
  obtain ⟨m, e, hd, rfl⟩ := fpDecode_of_fpValue h
  obtain ⟨-, -, hlow, -⟩ := fpDecode_fin_bounds hd
  obtain ⟨k, rfl⟩ : ∃ k : ℕ, e = k - 149 := ⟨(e + 149).toNat, by omega⟩
  rw [hd, zpow_sub₀ two_ne_zero, zpow_natCast]
  cases v.msb <;> simp [Fp.key, signedNat] <;> ring

theorem abs_fpKey_lt_of_value {v : Word} {x : ℚ} (h : fpValue v = some x) : |(fpDecode v).key| < 2 ^ 300 := by
  obtain ⟨m, e, hd, -⟩ := fpDecode_of_fpValue h
  obtain ⟨-, hm, -, hhigh⟩ := fpDecode_fin_bounds hd
  have hpow : 2 ^ (e + 149).toNat ≤ 2 ^ 253 := Nat.pow_le_pow_right two_pos (by omega)
  have hlt : m * 2 ^ (e + 149).toNat < 2 ^ 300 := calc
    m * 2 ^ (e + 149).toNat < 2 ^ 24 * 2 ^ 253 := Nat.mul_lt_mul_of_lt_of_le hm hpow (by positivity)
    _ < 2 ^ 47 * 2 ^ 253 := Nat.mul_lt_mul_of_pos_right (by decide) (by positivity)
    _ = 2 ^ 300 := by rw [← pow_add]
  rw [hd, Fp.key, abs_signedNat]
  exact_mod_cast hlt

/-- An infinity is beyond every finite number, on the side of its sign. -/
theorem fpKey_inf_beyond_value {a b : Word} {y : ℚ} (ha : fpIsInf a) (hb : fpValue b = some y) :
    (a.msb = true → (fpDecode a).key < (fpDecode b).key) ∧ (a.msb = false → (fpDecode b).key < (fpDecode a).key) := by
  obtain ⟨hlow, hhigh⟩ := abs_lt.mp (abs_fpKey_lt_of_value hb)
  rw [fpKey_of_inf ha]
  exact ⟨fun h => by rwa [if_pos h], fun h => by rwa [if_neg (by simp [h])]⟩

theorem fpKey_inf_ne_value {a b : Word} {y : ℚ} (ha : fpIsInf a) (hb : fpValue b = some y) :
    (fpDecode a).key ≠ (fpDecode b).key := by
  obtain ⟨hneg, hpos⟩ := fpKey_inf_beyond_value ha hb
  cases hs : a.msb
  · exact (hpos hs).ne'
  · exact (hneg hs).ne

theorem fpKey_lt_iff_of_value {a b : Word} {x y : ℚ} (ha : fpValue a = some x) (hb : fpValue b = some y) :
    (fpDecode a).key < (fpDecode b).key ↔ x < y := by
  rw [← Int.cast_lt (R := ℚ), fpKey_of_value ha, fpKey_of_value hb]
  exact mul_lt_mul_iff_left₀ (by positivity)

theorem fpKey_eq_iff_of_value {a b : Word} {x y : ℚ} (ha : fpValue a = some x) (hb : fpValue b = some y) :
    (fpDecode a).key = (fpDecode b).key ↔ x = y := by
  rw [← Int.cast_inj (α := ℚ), fpKey_of_value ha, fpKey_of_value hb]
  exact mul_left_inj' (by positivity)

theorem fpLess_iff (a b : Word) : fpLess a b = true ↔ fpIsLess a b := by
  rw [fpLess, Bool.and_eq_true, Bool.not_eq_true', ← Bool.not_eq_true, fpUnordered_iff, not_or, and_assoc, decide_eq_true_iff,
    fpIsLess]
  refine and_congr_right fun ha => and_congr_right fun hb => ?_
  rcases (fpClasses a).resolve_left ha with ha | ⟨x, hx⟩ <;> rcases (fpClasses b).resolve_left hb with hb | ⟨y, hy⟩
  · rw [fpValue_of_inf ha, fpValue_of_inf hb]
    exact fpKey_lt_iff_of_inf ha hb
  · obtain ⟨hneg, hpos⟩ := fpKey_inf_beyond_value ha hy
    rw [fpValue_of_inf ha, hy]
    cases hs : a.msb
    · simp [(hpos hs).le]
    · simp [hneg hs]
  · obtain ⟨hneg, hpos⟩ := fpKey_inf_beyond_value hb hx
    rw [fpValue_of_inf hb, hx]
    cases hs : b.msb
    · simp [hpos hs]
    · simp [(hneg hs).le]
  · rw [hx, hy]
    exact fpKey_lt_iff_of_value hx hy

theorem fpEqual_iff (a b : Word) : fpEqual a b = true ↔ fpIsEqual a b := by
  rw [fpEqual, Bool.and_eq_true, Bool.not_eq_true', ← Bool.not_eq_true, fpUnordered_iff, not_or, and_assoc, decide_eq_true_iff,
    fpIsEqual]
  refine and_congr_right fun ha => and_congr_right fun hb => ?_
  rcases (fpClasses a).resolve_left ha with ha | ⟨x, hx⟩ <;> rcases (fpClasses b).resolve_left hb with hb | ⟨y, hy⟩
  · rw [fpValue_of_inf ha, fpValue_of_inf hb]
    exact fpKey_eq_iff_of_inf ha hb
  · rw [fpValue_of_inf ha, hy]
    exact iff_of_false (fpKey_inf_ne_value ha hy) not_false
  · rw [fpValue_of_inf hb, hx]
    exact iff_of_false (fpKey_inf_ne_value hb hx).symm not_false
  · rw [hx, hy]
    exact fpKey_eq_iff_of_value hx hy

theorem fpCondition_iff (cond : BitVec 4) (a b : Word) : fpCondition cond a b = true ↔
    (cond.getLsbD 2 = true ∧ fpIsLess a b) ∨ (cond.getLsbD 1 = true ∧ fpIsEqual a b) ∨
      (cond.getLsbD 0 = true ∧ (fpIsNan a ∨ fpIsNan b)) := by
  simp only [fpCondition, Bool.or_eq_true, Bool.and_eq_true, fpLess_iff, fpEqual_iff, fpUnordered_iff, or_assoc]

theorem getLsbD_fcrSetC (v : Word) (c : Bool) {i : Nat} (hi : i < 32) :
    (fcrSetC v c).getLsbD i = if i = 23 then c else v.getLsbD i := by
  have hmask : (0x00800000#32 : Word).getLsbD i = decide (i = 23) := by
    rw [show (0x00800000#32 : Word) = BitVec.twoPow 32 23 from rfl, BitVec.getLsbD_twoPow]
    simp [eq_comm]
  rw [fcrSetC, BitVec.getLsbD_or, BitVec.getLsbD_and, BitVec.getLsbD_not, hmask]
  by_cases h : i = 23
  · cases c <;> simp [h]
  · cases c <;> simp only [h, hi, hmask, if_true, if_false, Bool.false_eq_true, decide_true, decide_false, Bool.not_false,
      Bool.and_true, Bool.or_false, BitVec.getLsbD_zero]

/-- Settles O29: each entry writes C with the condition that its number names. -/
theorem fpCompares : Obligations.FpCompares := by
  intro s fs ft c hc
  have hexec : exec c.1 s = .next (s.writeC (fpCondition c.2 (s.f fs) (s.f ft))) := by fin_cases hc <;> rfl
  refine ⟨_, _, hexec, writesFcr31_setFcr31 s _, fun i hi hne => ?_, ?_⟩
  · rw [getLsbD_fcrSetC _ _ hi, if_neg hne]
  · rw [getLsbD_fcrSetC _ _ (by decide), if_pos rfl, fpCondition_iff]

end Sys2Proof.Machine
end

section
/-! SUPPORT. Rounding to an integer: nearest with ties to even, and the other modes of R233; the word conversions. -/

namespace Sys2Proof.Machine

/-! ## The nearest integer, ties to even (R215, R233) -/

/-- `n` is an integer nearest to `z`, and even where `z` is halfway between two integers. -/
structure NearestEven (z : ℝ) (n : ℤ) : Prop where
  dist : |z - n| ≤ 1 / 2
  tie : |z - n| = 1 / 2 → n % 2 = 0

theorem roundsTo_rn_iff (z : ℚ) (n : ℤ) : roundsTo .rn z n ↔ NearestEven z n := by
  have hcast : |(z : ℝ) - n| = ((|z - n| : ℚ) : ℝ) := by push_cast; rfl
  have hhalf : (1 / 2 : ℝ) = ((1 / 2 : ℚ) : ℝ) := by push_cast; rfl
  constructor
  · rintro ⟨hdist, htie⟩
    exact ⟨by rw [hcast, hhalf]; exact_mod_cast hdist, fun h => htie (by rw [hcast, hhalf] at h; exact_mod_cast h)⟩
  · rintro ⟨hdist, htie⟩
    rw [hcast, hhalf] at hdist htie
    exact ⟨by exact_mod_cast hdist, fun h => htie (by exact_mod_cast h)⟩

namespace NearestEven
variable {z : ℝ} {n : ℤ}

theorem neg (h : NearestEven z n) : NearestEven (-z) (-n) := by
  have hcast : |-z - ((-n : ℤ) : ℝ)| = |z - n| := by rw [Int.cast_neg, ← abs_neg]; ring_nf
  exact ⟨hcast ▸ h.dist, fun ht => by have := h.tie (hcast ▸ ht); omega⟩

theorem signed {m : ℕ} (h : NearestEven z m) (neg : Bool) : NearestEven ((if neg then -1 else 1) * z) (signedNat neg m) := by
  cases neg
  · simpa [signedNat] using h
  · simpa [signedNat] using h.neg

/-- The integer part and a fraction `t` below a half. -/
theorem of_lt_half {q : ℕ} {t : ℝ} (h0 : 0 ≤ t) (ht : t < 1 / 2) : NearestEven (q + t) (q : ℕ) := by
  have habs : |(q : ℝ) + t - ((q : ℤ) : ℝ)| = t := by rw [Int.cast_natCast, add_sub_cancel_left, abs_of_nonneg h0]
  exact ⟨by rw [habs]; exact ht.le, fun h => absurd (habs.symm.trans h) ht.ne⟩

theorem of_half_lt {q : ℕ} {t : ℝ} (ht : 1 / 2 < t) (h1 : t < 1) : NearestEven (q + t) (q + 1 : ℕ) := by
  have habs : |(q : ℝ) + t - (((q + 1 : ℕ) : ℤ) : ℝ)| = 1 - t := by
    push_cast
    rw [show (q : ℝ) + t - (q + 1) = -(1 - t) by ring, abs_neg, abs_of_pos (by linarith)]
  exact ⟨by rw [habs]; linarith, fun h => by rw [habs] at h; linarith⟩

theorem of_eq_half {q : ℕ} {t : ℝ} (ht : t = 1 / 2) : NearestEven (q + t) (if q % 2 = 1 then q + 1 else q : ℕ) := by
  subst ht
  split
  · refine ⟨?_, fun _ => by omega⟩
    push_cast
    rw [add_sub_add_left_eq_sub, abs_of_neg (by norm_num)]
    norm_num
  · refine ⟨?_, fun _ => by omega⟩
    rw [Int.cast_natCast, add_sub_cancel_left, abs_of_pos (by norm_num)]

/-- No integer is nearer, and where another is as near the nearest one is even. -/
theorem le_dist (h : NearestEven z n) (k : ℤ) : |n - z| ≤ |k - z| ∧ (k ≠ n → |n - z| = |k - z| → n % 2 = 0) := by
  obtain ⟨hdist, htie⟩ := h
  rw [abs_sub_comm] at hdist htie
  rcases eq_or_ne k n with rfl | hk
  · exact ⟨le_rfl, fun h => absurd rfl h⟩
  · have hone : (1 : ℝ) ≤ |(k : ℝ) - n| := by exact_mod_cast Int.one_le_abs (sub_ne_zero.mpr hk)
    have htri : |(k : ℝ) - n| ≤ |k - z| + |n - z| := by
      rw [abs_sub_comm (n : ℝ) z]; exact abs_sub_le _ _ _
    exact ⟨by linarith, fun _ heq => htie (by linarith)⟩

/-- A number below an integer's magnitude that `z` reaches is farther away than the nearest integer. -/
theorem lt_dist_of_abs_lt (h : NearestEven z n) {u : ℝ} {b : ℕ} (hu : |u| < b) (hz : b ≤ |z|) : |n - z| < |u - z| := by
  have hsep : |z| - |u| ≤ |u - z| := by rw [abs_sub_comm]; exact abs_sub_abs_le_abs_sub z u
  rcases le_total 0 z with h0 | h0
  · rw [abs_of_nonneg h0] at hz hsep
    have := (h.le_dist b).1
    rw [Int.cast_natCast, abs_sub_comm (b : ℝ), abs_of_nonneg (by linarith : (0 : ℝ) ≤ z - b)] at this
    linarith
  · rw [abs_of_nonpos h0] at hz hsep
    have := (h.le_dist (-b)).1
    rw [Int.cast_neg, Int.cast_natCast, abs_of_nonneg (by linarith : (0 : ℝ) ≤ -b - z)] at this
    linarith

end NearestEven

/-- `shiftRoundEven` rounds `(m + δ) / 2^k`, where `sticky` says whether the part `δ` below 1 is 0. -/
theorem nearestEven_shiftRoundEven (m : ℕ) {k : ℕ} {sticky : Bool} {δ : ℝ} (h0 : 0 ≤ δ) (h1 : δ < 1)
    (hs : sticky = true ↔ 0 < δ) (hk : δ = 0 ∨ 0 < k) :
    NearestEven ((m + δ) / 2 ^ k) (shiftRoundEven m k sticky) := by
  have hpos : (0 : ℝ) < 2 ^ k := by positivity
  have hrem : m % 2 ^ k < 2 ^ k := Nat.mod_lt m (by positivity)
  have hmod : (2 : ℝ) ^ k * (m / 2 ^ k : ℕ) + (m % 2 ^ k : ℕ) = m := by exact_mod_cast Nat.div_add_mod m (2 ^ k)
  rw [shiftRoundEven]
  generalize m / 2 ^ k = q at hmod ⊢
  generalize m % 2 ^ k = r at hmod hrem ⊢
  have hrem : (r : ℝ) + 1 ≤ 2 ^ k := by exact_mod_cast hrem
  have hsplit : (m + δ) / 2 ^ k = q + (r + δ) / 2 ^ k := by rw [← hmod]; field_simp; ring
  rw [hsplit]
  rcases lt_trichotomy (2 * r) (2 ^ k) with hlt | heq | hgt
  · have hfrac : (r + δ) / 2 ^ k < 1 / 2 := by
      rw [div_lt_div_iff₀ hpos two_pos]
      rcases hk with rfl | hk
      · have : (2 * r : ℝ) < 2 ^ k := by exact_mod_cast hlt
        linarith
      · obtain ⟨j, rfl⟩ := Nat.exists_eq_succ_of_ne_zero hk.ne'
        have : (r : ℝ) + 1 ≤ 2 ^ j := by exact_mod_cast (show r + 1 ≤ 2 ^ j by rw [pow_succ] at hlt; omega)
        rw [pow_succ]
        linarith
    simpa [hlt.not_gt, hlt.ne] using NearestEven.of_lt_half (by positivity) hfrac
  · have hhalf : (2 * r : ℝ) = 2 ^ k := by exact_mod_cast heq
    cases hst : sticky
    · have hfrac : (r + δ) / 2 ^ k = 1 / 2 := by
        have : ¬ 0 < δ := fun h => by simp [hs.mpr h] at hst
        rw [div_eq_div_iff hpos.ne' two_ne_zero]
        linarith
      simpa [heq] using NearestEven.of_eq_half hfrac
    · have hfrac : 1 / 2 < (r + δ) / 2 ^ k := by
        rw [div_lt_div_iff₀ two_pos hpos]
        linarith [hs.mp hst]
      simpa [heq] using NearestEven.of_half_lt hfrac ((div_lt_one hpos).mpr (by linarith))
  · have hfrac : 1 / 2 < (r + δ) / 2 ^ k := by
      have : (2 : ℝ) ^ k < 2 * r := by exact_mod_cast hgt
      rw [div_lt_div_iff₀ two_pos hpos]
      linarith
    simpa [hgt] using NearestEven.of_half_lt hfrac ((div_lt_one hpos).mpr (by linarith))

/-! ## The modes of R233 -/

theorem roundsTo_rm (n : ℤ) {d : ℤ} (hd : 0 < d) : roundsTo .rm (n / d) (n / d : ℤ) := by
  have hq : (0 : ℚ) < d := by exact_mod_cast hd
  refine ⟨?_, ?_⟩
  · rw [le_div_iff₀ hq]
    exact_mod_cast Int.ediv_mul_le n hd.ne'
  · rw [div_lt_iff₀ hq]
    exact_mod_cast Int.lt_ediv_add_one_mul_self n hd

theorem roundsTo_rp (n : ℤ) {d : ℤ} (hd : 0 < d) : roundsTo .rp (n / d) (-(-n / d) : ℤ) := by
  obtain ⟨hle, hlt⟩ := roundsTo_rm (-n) hd
  rw [Int.cast_neg, neg_div] at hle hlt
  refine ⟨?_, ?_⟩ <;> rw [Int.cast_neg] <;> linarith

theorem roundsTo_rz_neg {z : ℚ} {n : ℤ} (h : roundsTo .rz z n) : roundsTo .rz (-z) (-n) := by
  obtain ⟨hle, hlt, hsign⟩ := h
  refine ⟨?_, ?_, ?_⟩ <;> push_cast
  · rwa [abs_neg, abs_neg]
  · rwa [abs_neg, abs_neg]
  · rwa [neg_mul_neg]

theorem roundsTo_rz_of_nonneg {n d : ℤ} (hn : 0 ≤ n) (hd : 0 < d) : roundsTo .rz (n / d) (n / d : ℤ) := by
  obtain ⟨hle, hlt⟩ := roundsTo_rm n hd
  have hz : (0 : ℚ) ≤ n / d := div_nonneg (by exact_mod_cast hn) (by exact_mod_cast hd.le)
  have hq : (0 : ℚ) ≤ (n / d : ℤ) := by exact_mod_cast Int.ediv_nonneg hn hd.le
  exact ⟨by rwa [abs_of_nonneg hq, abs_of_nonneg hz], by rwa [abs_of_nonneg hq, abs_of_nonneg hz], mul_nonneg hq hz⟩

theorem roundsTo_rz (n : ℤ) {d : ℤ} (hd : 0 < d) : roundsTo .rz (n / d) (n.tdiv d) := by
  rcases le_total 0 n with hn | hn
  · rw [Int.tdiv_eq_ediv_of_nonneg hn]
    exact roundsTo_rz_of_nonneg hn hd
  · have h := roundsTo_rz_neg (roundsTo_rz_of_nonneg (Int.neg_nonneg_of_nonpos hn) hd)
    rwa [← Int.tdiv_eq_ediv_of_nonneg (Int.neg_nonneg_of_nonpos hn), Int.neg_tdiv, neg_neg, Int.cast_neg, neg_div, neg_neg] at h

theorem roundsTo_rn_shiftRoundEven (neg : Bool) (m k : ℕ) :
    roundsTo .rn (signedNat neg m / (2 ^ k : ℤ)) (signedNat neg (shiftRoundEven m k false)) := by
  have h := (nearestEven_shiftRoundEven m (k := k) (sticky := false) le_rfl one_pos (by simp) (.inl rfl)).signed neg
  rw [roundsTo_rn_iff]
  convert h using 1
  rw [add_zero]
  cases neg <;> simp [signedNat, neg_div]

/-- A number that is `m * 2^e`, as a fraction of integers. -/
theorem signedNat_mul_zpow (neg : Bool) (m : ℕ) (e : ℤ) :
    (signedNat neg m * 2 ^ e : ℚ) = signedNat neg (m * 2 ^ e.toNat) / (2 ^ (-e).toNat : ℤ) := by
  have hpow : (2 : ℚ) ^ e = 2 ^ e.toNat / 2 ^ (-e).toNat := by
    rw [← zpow_natCast, ← zpow_natCast, ← zpow_sub₀ two_ne_zero, Int.toNat_sub_toNat_neg]
  rw [hpow]
  cases neg <;> simp [signedNat] <;> ring

/-- `round_int` gives the integer of each mode (R233). -/
theorem roundInt_roundsTo (mode : RoundMode) (neg : Bool) (m : ℕ) (e : ℤ) :
    roundsTo mode (signedNat neg m * 2 ^ e) (roundInt mode neg m e) := by
  have hd : (0 : ℤ) < 2 ^ (-e).toNat := by positivity
  rw [signedNat_mul_zpow]
  cases mode with
  | rn => exact roundsTo_rn_shiftRoundEven neg _ _
  | rz => exact roundsTo_rz _ hd
  | rp => exact roundsTo_rp _ hd
  | rm => exact roundsTo_rm _ hd

/-! ## Word conversions (R30, R232) -/

section
variable {p : Params} {v : Word}

theorem toWord_of_nan (mode : RoundMode) (h : fpIsNan v) :
    toWord p v mode = if p.cvtNan = .intMax then 0x7FFFFFFF#32 else 0x80000000#32 := by
  rw [toWord, fpDecode_of_nan h]
  cases hp : p.cvtNan <;> simp [cvtNanResult, hp, intMax, intMin]

theorem toWord_of_inf (mode : RoundMode) (h : fpIsInf v) :
    toWord p v mode = if v.msb then 0x80000000#32 else 0x7FFFFFFF#32 := by
  rw [toWord, fpDecode_of_inf h]
  rfl

/-- A finite number becomes the integer of its mode, or the bound that it passes. -/
theorem toWord_of_value (mode : RoundMode) {z : ℚ} (h : fpValue v = some z) : ∃ n : ℤ, roundsTo mode z n ∧
    (-2 ^ 31 ≤ n → n < 2 ^ 31 → (toWord p v mode).toInt = n) ∧ (2 ^ 31 ≤ n → toWord p v mode = 0x7FFFFFFF#32) ∧
    (n < -2 ^ 31 → toWord p v mode = if p.cvtRange = .saturate then 0x80000000#32 else 0x7FFFFFFF#32) := by
  obtain ⟨m, e, hd, rfl⟩ := fpDecode_of_fpValue h
  refine ⟨roundInt mode v.msb m e, roundInt_roundsTo mode v.msb m e, ?_⟩
  rw [toWord, hd]
  simp only
  generalize roundInt mode v.msb m e = n
  refine ⟨fun hlow hhigh => ?fits, fun hhigh => ?above, fun hlow => ?below⟩
  case fits =>
    rw [if_neg (by omega), if_neg (by omega), BitVec.toInt_ofInt_eq_self (by decide) (by simpa using hlow) (by simpa using hhigh)]
  case above =>
    rw [if_pos (by omega), cvtRangeResult]
    cases p.cvtRange <;> rfl
  case below =>
    rw [if_neg (by omega), if_pos (by omega), cvtRangeResult]
    cases p.cvtRange <;> rfl

end

/-- FCR31.RM selects the mode by its number (R30). -/
theorem roundModeOf_fcrRM (v : Word) : roundModeOf (fcrRM v) =
    if v.toNat % 4 = 0 then .rn else if v.toNat % 4 = 1 then .rz else if v.toNat % 4 = 2 then .rp else .rm := by
  have hmode : ∀ rm : BitVec 2, roundModeOf rm =
      if rm.toNat = 0 then .rn else if rm.toNat = 1 then .rz else if rm.toNat = 2 then .rp else .rm := by decide
  have hrm : (fcrRM v).toNat = v.toNat % 4 := by simp [fcrRM, BitVec.extractLsb'_toNat]
  rw [hmode, hrm]

/-- Settles O28: every entry writes `to_word` of its operand, whose cases are those of the statement. -/
theorem fpToWord : Obligations.FpToWord := by
  intro s fd fs c hc
  have hexec : exec c.1 s = .next (s.advance.setF fd (toWord s.par (s.f fs) c.2)) := by
    rw [← roundModeOf_fcrRM] at hc
    fin_cases hc <;> rfl
  have hwrites := writesFpr_advance_setF s fd (toWord s.par (s.f fs) c.2)
  refine ⟨fun z hz => ?_, fun hnan => ?_, fun hinf => ?_⟩
  · obtain ⟨n, hn, hresult⟩ := toWord_of_value (p := s.par) c.2 hz
    exact ⟨_, _, n, hexec, hn, hwrites, hresult⟩
  · exact ⟨_, hexec, toWord_of_nan (p := s.par) c.2 hnan ▸ hwrites⟩
  · exact ⟨_, hexec, toWord_of_inf (p := s.par) c.2 hinf ▸ hwrites⟩

end Sys2Proof.Machine
end

section
/-! SUPPORT. Rounding to binary32: the words that the model packs, and why a significand that is the nearest integer at its
exponent makes the nearest number. -/

namespace Sys2Proof.Machine

/-! ## Words from a sign and 31 bits -/

/-- The word of a sign and the bits below it. -/
def fpWord (neg : Bool) (bits : ℕ) : Word := fpSign neg ||| BitVec.ofNat 32 bits

theorem fpSign_eq_fpWord (neg : Bool) : fpSign neg = fpWord neg 0 := by cases neg <;> rfl

section
variable {neg : Bool} {bits : ℕ}

theorem toNat_fpWord (h : bits < 2 ^ 31) : (fpWord neg bits).toNat = neg.toNat * 2 ^ 31 + bits := by
  have hsign : (fpSign neg).toNat = 2 ^ 31 * neg.toNat := by cases neg <;> rfl
  rw [fpWord, BitVec.toNat_or, hsign, BitVec.toNat_ofNat, Nat.mod_eq_of_lt (by omega), ← Nat.two_pow_add_eq_or_of_lt h, mul_comm]

theorem fpExponent_fpWord (h : bits < 2 ^ 31) : fpExponent (fpWord neg bits) = bits / 2 ^ 23 := by
  rw [fpExponent_eq, toNat_fpWord h]
  cases neg <;> simp <;> omega

theorem fpFraction_fpWord (h : bits < 2 ^ 31) : fpFraction (fpWord neg bits) = bits % 2 ^ 23 := by
  rw [fpFraction_eq, toNat_fpWord h]
  cases neg <;> simp; omega

theorem msb_fpWord (h : bits < 2 ^ 31) : (fpWord neg bits).msb = neg := by
  rw [word_msb_eq, toNat_fpWord h]
  cases neg <;> simp; omega

theorem getLsbD_zero_fpWord (h : bits < 2 ^ 31) : (fpWord neg bits).getLsbD 0 = decide (bits % 2 = 1) := by
  rw [BitVec.getLsbD, toNat_fpWord h, Nat.testBit_zero]
  cases neg <;> simp; omega

end

@[simp] theorem msb_fpInf (neg : Bool) : (fpInf neg).msb = neg := by cases neg <;> rfl

@[simp] theorem msb_fpSign (neg : Bool) : (fpSign neg).msb = neg := by cases neg <;> rfl

@[simp] theorem fpIsInf_fpInf (neg : Bool) : fpIsInf (fpInf neg) := by
  rw [fpIsInf_iff]
  cases neg <;> decide

@[simp] theorem fpIsZero_fpSign (neg : Bool) : fpIsZero (fpSign neg) := by
  rw [fpIsZero_iff]
  cases neg <;> decide

/-! ## A significand at an exponent -/

theorem abs_sign_mul (neg : Bool) {y : ℝ} (hy : 0 ≤ y) : |(if neg then -1 else 1) * y| = y := by
  cases neg <;> simp [abs_of_nonneg hy]

/-- The word of the number `(-1)^neg * mant * 2^q`, or infinity where it is too great. -/
def fpPack (neg : Bool) (q : ℤ) (mant : ℕ) : Word :=
  if 0x7F800000 ≤ (q + 149).toNat * 2 ^ 23 + mant then fpInf neg else fpWord neg ((q + 149).toNat * 2 ^ 23 + mant)

theorem msb_fpPack (neg : Bool) (q : ℤ) (mant : ℕ) : (fpPack neg q mant).msb = neg := by
  rw [fpPack]
  split
  · exact msb_fpInf neg
  · exact msb_fpWord (by omega)

/-- The packed word stands for its number: a significand of 2^24 carries into the exponent, and one below 2^23 is subnormal. -/
theorem fpValue_fpWord (neg : Bool) {q : ℤ} {mant : ℕ} (hq : -149 ≤ q) (hmant : mant ≤ 2 ^ 24)
    (hnormal : -149 < q → 2 ^ 23 ≤ mant) (hbits : (q + 149).toNat * 2 ^ 23 + mant < 0x7F800000) :
    fpValue (fpWord neg ((q + 149).toNat * 2 ^ 23 + mant)) = some ((signedNat neg mant : ℚ) * 2 ^ q) := by
  obtain ⟨j, rfl⟩ : ∃ j : ℕ, q = j - 149 := ⟨(q + 149).toNat, by omega⟩
  rw [sub_add_cancel, Int.toNat_natCast] at hbits ⊢
  have hlt : j * 2 ^ 23 + mant < 2 ^ 31 := by omega
  rw [fpValue_eq, fpDecode, fpExponent_fpWord hlt, fpFraction_fpWord hlt, msb_fpWord hlt, if_neg (by omega)]
  rcases Nat.lt_or_ge mant (2 ^ 23) with hsub | hnorm
  · obtain rfl : j = 0 := by omega
    rw [if_pos (by omega), Fp.value, Nat.mod_eq_of_lt (by omega)]
    simp
  · rcases hmant.lt_or_eq with hlt24 | rfl
    · rw [if_neg (by omega), Fp.value, show (j * 2 ^ 23 + mant) % 2 ^ 23 + 2 ^ 23 = mant by omega,
        show (j * 2 ^ 23 + mant) / 2 ^ 23 = j + 1 by omega, Nat.cast_add, Nat.cast_one,
        show (j : ℤ) + 1 - 150 = j - 149 by omega]
    · rw [if_neg (by omega), Fp.value, show (j * 2 ^ 23 + 2 ^ 24) % 2 ^ 23 + 2 ^ 23 = 2 ^ 23 by omega,
        show (j * 2 ^ 23 + 2 ^ 24) / 2 ^ 23 = j + 2 by omega, Nat.cast_add, Nat.cast_two,
        show (j : ℤ) + 2 - 150 = j - 149 + 1 by omega, zpow_add_one₀ two_ne_zero]
      cases neg <;> simp [signedNat] <;> ring

/-- In units of `2^q` a finite number is an integer, or it has an exponent below `q` and is less than 2^23. -/
theorem fpValue_scaled {u : Word} {x : ℚ} (hu : fpValue u = some x) (q : ℤ) :
    (∃ k : ℤ, (x : ℝ) / 2 ^ q = k) ∨ (-149 < q ∧ |(x : ℝ) / 2 ^ q| < ((2 ^ 23 : ℕ) : ℝ)) := by
  obtain ⟨m, e, hd, rfl⟩ := fpDecode_of_fpValue hu
  obtain ⟨-, hm, he, -⟩ := fpDecode_fin_bounds hd
  have hscaled : ((signedNat u.msb m * 2 ^ e : ℚ) : ℝ) / 2 ^ q = signedNat u.msb m * 2 ^ (e - q) := by
    rw [zpow_sub₀ two_ne_zero]
    push_cast
    ring
  rw [hscaled]
  rcases le_or_gt q e with hqe | hqe
  · obtain ⟨k, hk⟩ := Int.eq_ofNat_of_zero_le (sub_nonneg.mpr hqe)
    refine .inl ⟨signedNat u.msb m * 2 ^ k, ?_⟩
    rw [hk, zpow_natCast]
    push_cast
    rfl
  · have habs : |(signedNat u.msb m : ℝ)| = m := by exact_mod_cast abs_signedNat u.msb m
    have hpow : (2 : ℝ) ^ (e - q) ≤ 2 ^ (-1 : ℤ) := zpow_le_zpow_right₀ one_le_two (by omega)
    have hm : (m : ℝ) < 2 ^ 24 := by exact_mod_cast hm
    rw [abs_mul, habs, abs_of_pos (by positivity : (0 : ℝ) < 2 ^ (e - q))]
    refine .inr ⟨by omega, ?_⟩
    calc (m : ℝ) * 2 ^ (e - q) < 2 ^ 24 * 2 ^ (e - q) := by gcongr
      _ ≤ 2 ^ 24 * 2 ^ (-1 : ℤ) := by gcongr
      _ = ((2 ^ 23 : ℕ) : ℝ) := by norm_num

/-- The magnitude `y` rounded at exponent `q`: `q` is the exponent of the last place of a 24-bit significand, or the least one, and
`mant` is the nearest integer there. -/
structure RoundsAt (y : ℝ) (q : ℤ) (mant : ℕ) : Prop where
  nonneg : 0 ≤ y
  least : -149 ≤ q
  below : y < 2 ^ 24 * 2 ^ q
  normal : -149 < q → 2 ^ 23 * 2 ^ q ≤ y
  nearest : NearestEven (y / 2 ^ q) mant

namespace RoundsAt
variable {y : ℝ} {q : ℤ} {mant : ℕ}

theorem scaled_lt (h : RoundsAt y q mant) : y / 2 ^ q < 2 ^ 24 := by
  rw [div_lt_iff₀ (by positivity)]
  exact h.below

theorem le_scaled (h : RoundsAt y q mant) (hq : -149 < q) : 2 ^ 23 ≤ y / 2 ^ q := by
  rw [le_div_iff₀ (by positivity)]
  exact h.normal hq

/-- The significand is within a half of the scaled magnitude. -/
theorem mant_near (h : RoundsAt y q mant) : y / 2 ^ q - 1 / 2 ≤ mant ∧ (mant : ℝ) ≤ y / 2 ^ q + 1 / 2 := by
  obtain ⟨hlow, hhigh⟩ := abs_le.mp h.nearest.dist
  rw [Int.cast_natCast] at hlow hhigh
  exact ⟨by linarith, by linarith⟩

theorem mant_le (h : RoundsAt y q mant) : mant ≤ 2 ^ 24 := by
  have : (mant : ℝ) < ((2 ^ 24 + 1 : ℕ) : ℝ) := by
    push_cast
    linarith [h.mant_near.2, h.scaled_lt]
  exact Nat.lt_succ_iff.mp (by exact_mod_cast this)

theorem le_mant (h : RoundsAt y q mant) (hq : -149 < q) : 2 ^ 23 ≤ mant := by
  have : ((2 ^ 23 : ℕ) : ℝ) < ((mant + 1 : ℕ) : ℝ) := by
    push_cast
    linarith [h.mant_near.1, h.le_scaled hq]
  exact Nat.lt_succ_iff.mp (by exact_mod_cast this)

/-- Half a unit below 2^24, the nearest integer is 2^24: the one below it is odd. -/
theorem mant_eq_iff (h : RoundsAt y q mant) : mant = 2 ^ 24 ↔ 2 ^ 24 - 1 / 2 ≤ y / 2 ^ q := by
  obtain ⟨hlow, hhigh⟩ := h.mant_near
  constructor
  · rintro rfl
    push_cast at hhigh
    linarith
  · intro hy
    have hge : 2 ^ 24 - 1 ≤ mant := by
      have : (((2 ^ 24 - 1 : ℕ)) : ℝ) ≤ mant := by push_cast; linarith
      exact_mod_cast this
    by_contra hne
    have hmant : mant = 2 ^ 24 - 1 := by have := h.mant_le; omega
    subst hmant
    have htie := h.nearest.tie
    rw [Int.cast_natCast] at htie
    push_cast at htie hhigh
    have : ((2 ^ 24 - 1 : ℕ) : ℤ) % 2 = 0 := by
      push_cast
      apply htie
      rw [show y / 2 ^ q = 2 ^ 24 - 1 / 2 by linarith]
      norm_num
    omega

/-- The packed bits pass the greatest finite encoding exactly from halfway between the greatest number and 2^128 on. -/
theorem overflow_iff (h : RoundsAt y q mant) : 0x7F800000 ≤ (q + 149).toNat * 2 ^ 23 + mant ↔ 2 ^ 128 - 2 ^ 103 ≤ y := by
  have hmant := h.mant_le
  rcases lt_trichotomy q 104 with hq | rfl | hq
  · have hpow : (2 : ℝ) ^ q ≤ 2 ^ (103 : ℤ) := zpow_le_zpow_right₀ one_le_two (by omega)
    rw [zpow_ofNat] at hpow
    exact iff_of_false (by omega) (by linarith [h.below])
  · have heq := h.mant_eq_iff
    rw [le_div_iff₀ (by positivity), zpow_ofNat] at heq
    have hbits : 0x7F800000 ≤ ((104 : ℤ) + 149).toNat * 2 ^ 23 + mant ↔ mant = 2 ^ 24 := by omega
    rw [hbits, heq]
    norm_num
  · have hpow : (2 : ℝ) ^ (105 : ℤ) ≤ 2 ^ q := zpow_le_zpow_right₀ one_le_two (by omega)
    rw [zpow_ofNat] at hpow
    have hnormal := h.normal (by omega)
    have := h.le_mant (by omega)
    exact iff_of_true (by omega) (by linarith)

/-- No binary32 number is nearer than the rounded significand, and where another is as near the significand is even. -/
theorem closest (h : RoundsAt y q mant) (neg : Bool) {u : Word} {x : ℚ} (hu : fpValue u = some x) :
    let z := (if neg then -1 else 1) * (y / 2 ^ q)
    |(signedNat neg mant : ℝ) - z| ≤ |x / 2 ^ q - z| ∧
      ((x : ℝ) / 2 ^ q ≠ signedNat neg mant → |(signedNat neg mant : ℝ) - z| = |x / 2 ^ q - z| →
        signedNat neg mant % 2 = 0) := by
  intro z
  have hnear : NearestEven z (signedNat neg mant) := h.nearest.signed neg
  rcases fpValue_scaled hu q with ⟨k, hk⟩ | ⟨hq, hsmall⟩
  · rw [hk]
    obtain ⟨hle, htie⟩ := hnear.le_dist k
    exact ⟨hle, fun hne => htie (by exact_mod_cast hne)⟩
  · have hlarge : ((2 ^ 23 : ℕ) : ℝ) ≤ |z| := by
      rw [abs_sign_mul neg (div_nonneg h.nonneg (by positivity))]
      exact_mod_cast h.le_scaled hq
    have hlt := hnear.lt_dist_of_abs_lt hsmall hlarge
    exact ⟨hlt.le, fun _ heq => absurd heq hlt.ne⟩

/-- The packed word is the rounded number. -/
theorem fpRounded (h : RoundsAt y q mant) {neg zero : Bool} (hzero : y = 0 → zero = neg) :
    FpRounded (fpPack neg q mant) ((if neg then -1 else 1) * y) zero where
  sign := by
    rw [msb_fpPack]
    rcases h.nonneg.eq_or_lt with h0 | hpos
    · simp [← h0, hzero h0.symm]
    · cases neg <;> simp [hpos, hpos.ne', hpos.le]
  overflow hz := by
    rw [abs_sign_mul neg h.nonneg] at hz
    rw [fpPack, if_pos (h.overflow_iff.mpr hz)]
    exact fpIsInf_fpInf neg
  finite hz := by
    rw [abs_sign_mul neg h.nonneg] at hz
    have hbits := lt_of_not_ge (mt h.overflow_iff.mp hz.not_ge)
    have hvalue := fpValue_fpWord neg h.least h.mant_le h.le_mant hbits
    have hpos : (0 : ℝ) < 2 ^ q := by positivity
    have hunscale (x : ℝ) : |x - (if neg then -1 else 1) * y| = |x / 2 ^ q - (if neg then -1 else 1) * (y / 2 ^ q)| * 2 ^ q := by
      rw [← abs_of_pos hpos, ← abs_mul, abs_of_pos hpos]
      field_simp
    have hself : (((signedNat neg mant * 2 ^ q : ℚ) : ℝ) / 2 ^ q) = signedNat neg mant := by
      push_cast
      field_simp
    rw [fpPack, if_neg hbits.not_ge]
    refine ⟨_, hvalue, fun u x hu => ?_, fun u x hu hne heq => ?_⟩
    · rw [hunscale, hunscale x, hself]
      exact mul_le_mul_of_nonneg_right (h.closest neg hu).1 hpos.le
    · rw [hunscale, hunscale x, hself] at heq
      have heven := (h.closest neg hu).2 (fun hx => hne ?_) (mul_right_cancel₀ hpos.ne' heq)
      · rw [getLsbD_zero_fpWord (by omega)]
        cases neg <;> simp [signedNat] at heven ⊢ <;> omega
      · rw [div_eq_iff hpos.ne'] at hx
        exact Rat.cast_injective (α := ℝ) (by push_cast; exact hx)

end RoundsAt

/-! ## The model's rounding -/

theorem fpRound_gradual_zero (neg : Bool) (e : ℤ) (sticky : Bool) : fpRound .gradual neg 0 e sticky = fpPack neg (-149) 0 := by
  rw [fpRound, if_pos rfl, fpPack, if_neg (by omega), fpSign_eq_fpWord]
  norm_num

/-- The exponent of the last place that the model takes. -/
def fpPlace (m : ℕ) (e : ℤ) : ℤ := max ((m.log2 : ℤ) + e - 23) (-149)

/-- The significand that the model takes at that place. -/
def fpMant (m : ℕ) (e : ℤ) (sticky : Bool) : ℕ :=
  if fpPlace m e ≤ e then m * 2 ^ (e - fpPlace m e).toNat else shiftRoundEven m (fpPlace m e - e).toNat sticky

theorem fpRound_gradual_of_pos (neg : Bool) {m : ℕ} (hm : m ≠ 0) (e : ℤ) (sticky : Bool) :
    fpRound .gradual neg m e sticky = fpPack neg (fpPlace m e) (fpMant m e sticky) := by
  rw [fpRound, if_neg hm]
  simp only [reduceCtorEq, false_and, if_false]
  rfl

/-- The model rounds `(m + δ) * 2^e` at its place, where `sticky` says whether the part `δ` below 1 is 0, and is set for a
significand of more than 24 bits alone. -/
theorem roundsAt_fpMant {m : ℕ} {e : ℤ} {sticky : Bool} {δ : ℝ} (hm : m ≠ 0) (h0 : 0 ≤ δ) (h1 : δ < 1)
    (hs : sticky = true ↔ 0 < δ) (hlong : sticky = true → 2 ^ 24 ≤ m) :
    RoundsAt ((m + δ) * 2 ^ e) (fpPlace m e) (fpMant m e sticky) := by
  have hlow : (2 : ℝ) ^ m.log2 ≤ m := by exact_mod_cast Nat.log2_self_le hm
  have hhigh : (m : ℝ) + 1 ≤ 2 ^ (m.log2 + 1) := by exact_mod_cast Nat.lt_log2_self
  have hexact : sticky = false → δ = 0 := fun h => le_antisymm (not_lt.mp fun hpos => by simp [hs.mpr hpos] at h) h0
  have hplace : fpPlace m e = max ((m.log2 : ℤ) + e - 23) (-149) := rfl
  refine ⟨by positivity, by omega, ?below, fun hq => ?normal, ?nearest⟩
  case below =>
    have hpow : (2 : ℝ) ^ (m.log2 + 1) * 2 ^ e ≤ 2 ^ 24 * 2 ^ fpPlace m e := by
      rw [← zpow_natCast, ← zpow_natCast, ← zpow_add₀ two_ne_zero, ← zpow_add₀ two_ne_zero]
      exact zpow_le_zpow_right₀ one_le_two (by push_cast; omega)
    exact lt_of_lt_of_le (by gcongr; linarith) hpow
  case normal =>
    have hpow : (2 : ℝ) ^ 23 * 2 ^ fpPlace m e = 2 ^ m.log2 * 2 ^ e := by
      rw [← zpow_natCast, ← zpow_natCast, ← zpow_add₀ two_ne_zero, ← zpow_add₀ two_ne_zero]
      congr 1
      push_cast
      omega
    rw [hpow]
    gcongr
    linarith
  case nearest =>
    rw [fpMant]
    split
    · next hq =>
      have hδ : δ = 0 := hexact (by
        by_contra hst
        have : 24 ≤ m.log2 := (Nat.le_log2 hm).mpr (hlong (by simpa using hst))
        omega)
      obtain ⟨k, hk⟩ := Int.eq_ofNat_of_zero_le (sub_nonneg.mpr hq)
      have hscaled : ((m : ℝ) + δ) * 2 ^ e / 2 ^ fpPlace m e = ((m * 2 ^ k : ℕ) : ℤ) := by
        rw [hδ, mul_div_assoc, ← zpow_sub₀ two_ne_zero, hk, zpow_natCast]
        push_cast
        ring
      rw [hscaled, hk, Int.toNat_natCast]
      exact ⟨by simp, by simp⟩
    · next hq =>
      obtain ⟨k, hk⟩ := Int.eq_ofNat_of_zero_le (sub_nonneg.mpr (not_le.mp hq).le)
      have hscaled : ((m : ℝ) + δ) * 2 ^ e / 2 ^ fpPlace m e = (m + δ) / 2 ^ k := by
        rw [show fpPlace m e = e + k by omega, zpow_add₀ two_ne_zero, zpow_natCast]
        field_simp
      rw [hscaled, hk, Int.toNat_natCast]
      exact nearestEven_shiftRoundEven m h0 h1 hs (.inr (by omega))

/-- The model's rounding is to nearest, ties to even. -/
theorem fpRounded_fpRound (neg : Bool) {m : ℕ} {e : ℤ} {sticky : Bool} {δ : ℝ} (h0 : 0 ≤ δ) (h1 : δ < 1)
    (hs : sticky = true ↔ 0 < δ) (hlong : sticky = true → 2 ^ 24 ≤ m) {zero : Bool} (hzero : m = 0 → zero = neg) :
    FpRounded (fpRound .gradual neg m e sticky) ((if neg then -1 else 1) * ((m + δ) * 2 ^ e)) zero := by
  rcases eq_or_ne m 0 with rfl | hm
  · have hδ : δ = 0 := by
      refine le_antisymm (not_lt.mp fun hpos => ?_) h0
      have := hlong (hs.mpr hpos)
      omega
    have hz : RoundsAt 0 (-149) 0 :=
      ⟨le_rfl, le_rfl, by positivity, fun h => absurd h (lt_irrefl _), ⟨by simp, by simp⟩⟩
    rw [fpRound_gradual_zero, hδ, Nat.cast_zero, add_zero, zero_mul]
    exact hz.fpRounded fun _ => hzero rfl
  · rw [fpRound_gradual_of_pos neg hm]
    refine (roundsAt_fpMant hm h0 h1 hs hlong).fpRounded fun hy => absurd hy ?_
    have : (0 : ℝ) < m := by exact_mod_cast Nat.pos_of_ne_zero hm
    positivity

end Sys2Proof.Machine
end

section
/-! SUPPORT. The six instructions of `FP_ARITH`: their results before and after `FP_FTZ`, the exact numbers that they round, and
the cases of NaN, infinity and zero. -/

namespace Sys2Proof.Machine

/-! ## What `FP_FTZ` makes of a result (R215) -/

@[simp] theorem fpFlush_gradual (v : Word) : fpFlush .gradual v = v := if_neg (by simp)

theorem fpFlush_of_exponent (z : FtzMode) {v : Word} (h : fpExponent v ≠ 0) : fpFlush z v = v := if_neg fun hz => h hz.2

theorem fpFlush_flush_of_exponent {v : Word} (h : fpExponent v = 0) : fpFlush .flush v = fpSign v.msb := by
  have hsplit (i : Nat) (hi : i < 32) : (fpSign v.msb).getLsbD i = (decide (i = 31) && v.getLsbD i) := by
    have hmsb : v.msb = v.getLsbD 31 := BitVec.msb_eq_getLsbD_last v
    by_cases h31 : i = 31
    · subst h31
      rw [hmsb]
      cases v.getLsbD 31 <;> rfl
    · rw [decide_eq_false h31, Bool.false_and, fpSign]
      split
      · rw [getLsbD_signMask, decide_eq_false h31]
      · exact BitVec.getLsbD_zero
  rw [fpFlush, if_pos ⟨rfl, h⟩]
  apply BitVec.eq_of_getLsbD_eq
  intro i hi
  rw [BitVec.getLsbD_and, getLsbD_signMask, Bool.and_comm, hsplit i hi]

/-- Under `flush` an exponent field of 0 is a zero's. -/
theorem fpIsZero_of_fpFlush {v : Word} (h : (fpFlush .flush v).extractLsb' 23 8 = 0#8) : fpIsZero (fpFlush .flush v) := by
  by_cases he : fpExponent v = 0
  · rw [fpFlush_flush_of_exponent he]
    exact fpIsZero_fpSign _
  · rw [fpFlush_of_exponent _ he] at h
    exact absurd ((fpExponent_eq_iff v 0).mp h) he

@[simp] theorem fpFlush_fpInf (z : FtzMode) (neg : Bool) : fpFlush z (fpInf neg) = fpInf neg :=
  fpFlush_of_exponent z (by rw [((fpIsInf_iff _).mp (fpIsInf_fpInf neg)).1]; decide)

@[simp] theorem fpFlush_fpSign (z : FtzMode) (neg : Bool) : fpFlush z (fpSign neg) = fpSign neg := by
  cases z
  · exact fpFlush_gradual _
  · rw [fpFlush_flush_of_exponent ((fpIsZero_iff _).mp (fpIsZero_fpSign neg)).1, msb_fpSign]

theorem fpIsNan_fpNan (d : Word) : fpIsNan (fpNan d) := by
  have hones (e : BitVec 8) : e ||| 0xFF#8 = 0xFF#8 := BitVec.or_allOnes
  rw [fpNan, fpIsNan]
  split
  · next hzero =>
    rw [BitVec.extractLsb'_or, BitVec.extractLsb'_or, hzero]
    exact ⟨hones _, by decide⟩
  · next hfraction =>
    rw [BitVec.extractLsb'_or, BitVec.extractLsb'_or]
    exact ⟨hones _, by rwa [show (0x7F800000#32).extractLsb' 0 23 = 0#23 from rfl, BitVec.or_zero]⟩

@[simp] theorem fpFlush_fpNan (z : FtzMode) (d : Word) : fpFlush z (fpNan d) = fpNan d :=
  fpFlush_of_exponent z (by rw [((fpIsNan_iff _).mp (fpIsNan_fpNan d)).1]; decide)

theorem fpFlush_fpWord {neg : Bool} {bits : ℕ} (h : bits < 2 ^ 31) :
    fpFlush .flush (fpWord neg bits) = if bits < 2 ^ 23 then fpSign neg else fpWord neg bits := by
  split
  · next hsub => rw [fpFlush_flush_of_exponent (by rw [fpExponent_fpWord h]; omega), msb_fpWord h]
  · next hnorm => rw [fpFlush_of_exponent _ (by rw [fpExponent_fpWord h]; omega)]

/-- A rounding under `FP_FTZ` is the gradual one, flushed. -/
theorem fpRound_eq_fpFlush (z : FtzMode) (neg : Bool) (m : ℕ) (e : ℤ) (sticky : Bool) :
    fpRound z neg m e sticky = fpFlush z (fpRound .gradual neg m e sticky) := by
  cases z with
  | gradual => rw [fpFlush_gradual]
  | flush =>
    rcases eq_or_ne m 0 with rfl | hm
    · rw [fpRound, fpRound, if_pos rfl, if_pos rfl, fpFlush_fpSign]
    · have hflush : fpRound .flush neg m e sticky =
          let bits := (fpPlace m e + 149).toNat * 2 ^ 23 + fpMant m e sticky
          if 0x7F800000 ≤ bits then fpInf neg else if bits < 2 ^ 23 then fpSign neg else fpWord neg bits := by
        rw [fpRound, if_neg hm]
        simp only [true_and]
        rfl
      rw [hflush, fpRound_gradual_of_pos neg hm, fpPack]
      dsimp only
      split
      · rw [fpFlush_fpInf]
      · rw [fpFlush_fpWord (by omega)]

theorem fpRoundInt_eq_fpFlush (z : FtzMode) (neg : Bool) (n e : ℤ) :
    fpRoundInt z neg n e = fpFlush z (fpRoundInt .gradual neg n e) := by
  rw [fpRoundInt, fpRoundInt]
  split
  · rw [fpFlush_fpSign]
  · exact fpRound_eq_fpFlush z _ _ _ _

theorem fpAdd_eq_map_fpFlush (z : FtzMode) (a b : Fp) : fpAdd z a b = (fpAdd .gradual a b).map (fpFlush z) := by
  cases a with
  | nan => rfl
  | inf n =>
    cases b with
    | nan => rfl
    | inf n' => simp only [fpAdd]; split <;> simp
    | fin n' m' e' => simp [fpAdd]
  | fin n m e =>
    cases b with
    | nan => rfl
    | inf n' => simp [fpAdd]
    | fin n' m' e' => exact congrArg some (fpRoundInt_eq_fpFlush z _ _ _)

theorem fpSub_eq_map_fpFlush (z : FtzMode) (a b : Fp) : fpSub z a b = (fpSub .gradual a b).map (fpFlush z) :=
  fpAdd_eq_map_fpFlush z a b.neg

theorem fpMul_eq_map_fpFlush (z : FtzMode) (a b : Fp) : fpMul z a b = (fpMul .gradual a b).map (fpFlush z) := by
  cases a with
  | nan => rfl
  | inf n =>
    cases b with
    | nan => rfl
    | inf n' => simp [fpMul]
    | fin n' m' e' => simp only [fpMul]; split <;> simp
  | fin n m e =>
    cases b with
    | nan => rfl
    | inf n' => simp only [fpMul]; split <;> simp
    | fin n' m' e' => exact congrArg some (fpRound_eq_fpFlush z _ _ _ _)

theorem fpDiv_eq_map_fpFlush (z : FtzMode) (a b : Fp) : fpDiv z a b = (fpDiv .gradual a b).map (fpFlush z) := by
  cases a with
  | nan => rfl
  | inf n => cases b <;> simp [fpDiv]
  | fin n m e =>
    cases b with
    | nan => rfl
    | inf n' => simp [fpDiv]
    | fin n' m' e' =>
      simp only [fpDiv]
      split
      · split <;> simp
      · exact congrArg some (fpRound_eq_fpFlush z _ _ _ _)

theorem fpSqrt_eq_map_fpFlush (z : FtzMode) (a : Fp) : fpSqrt z a = (fpSqrt .gradual a).map (fpFlush z) := by
  cases a with
  | nan => rfl
  | inf n => cases n <;> simp [fpSqrt]
  | fin n m e =>
    simp only [fpSqrt]
    split
    · simp
    · split
      · rfl
      · exact congrArg some (fpRound_eq_fpFlush z _ _ _ _)

/-- An integer is never subnormal, so that `FP_FTZ` leaves its encoding. -/
theorem fpFlush_fpOfInt (z : FtzMode) (n : ℤ) : fpFlush z (fpOfInt n) = fpOfInt n := by
  rw [fpOfInt, fpRoundInt]
  split
  · exact fpFlush_fpSign z false
  · next hn =>
    rw [fpRound_gradual_of_pos _ (Int.natAbs_ne_zero.mpr hn), fpPack]
    split
    · exact fpFlush_fpInf z _
    · have hplace : fpPlace n.natAbs 0 = max ((n.natAbs.log2 : ℤ) + 0 - 23) (-149) := rfl
      exact fpFlush_of_exponent z (by rw [fpExponent_fpWord (by omega)]; omega)

theorem fpOfInt_eq_map_fpFlush (z : FtzMode) (n : ℤ) : some (fpOfInt n) = (some (fpOfInt n)).map (fpFlush z) :=
  congrArg some (fpFlush_fpOfInt z n).symm

/-! ## The frame of the six (R224 to R228, R234) -/

/-- The result that `FP_FTZ` is applied to: another arithmetic's, or the reference's, with a draw for its NaN. -/
def State.fpUnflushed (s : State) (op : Nat) (a b : Word) (r : Option Word) : Word :=
  match s.par.fpArith with
  | .other => Config.fpArith op a b
  | .ieeeNearestEven => r.getD (fpNan (Config.draw s.draws))

/-- The write of fd, under every `FP_ARITH`. -/
theorem writesFpr_writeFp (s : State) (op : Nat) (fd : FReg) (a b : Word) {r r' : Option Word}
    (hr : r = r'.map (fpFlush s.par.fpFtz)) :
    WritesFpr s (s.writeFp op fd a b r) fd (fpFlush s.par.fpFtz (s.fpUnflushed op a b r')) := by
  subst hr
  unfold State.writeFp State.fpUnflushed
  cases s.par.fpArith with
  | other => exact writesFpr_advance_setF s fd _
  | ieeeNearestEven =>
    cases r' with
    | none =>
      simp only [Option.map_none, Option.getD_none, fpFlush_fpNan]
      exact writesFpr_setF s fd _ 1
    | some v =>
      simp only [Option.map_some, Option.getD_some]
      exact writesFpr_advance_setF s fd _

section
variable (s : State) (fd fs ft : FReg)

theorem exec_addS : exec (.addS fd fs ft) s = .next (s.writeFp 0 fd (s.fBits fs) (s.fBits ft)
    (fpAdd s.par.fpFtz (fpDecode (s.fBits fs)) (fpDecode (s.fBits ft)))) := rfl

theorem exec_subS : exec (.subS fd fs ft) s = .next (s.writeFp 1 fd (s.fBits fs) (s.fBits ft)
    (fpSub s.par.fpFtz (fpDecode (s.fBits fs)) (fpDecode (s.fBits ft)))) := rfl

theorem exec_mulS : exec (.mulS fd fs ft) s = .next (s.writeFp 2 fd (s.fBits fs) (s.fBits ft)
    (fpMul s.par.fpFtz (fpDecode (s.fBits fs)) (fpDecode (s.fBits ft)))) := rfl

theorem exec_divS : exec (.divS fd fs ft) s = .next (s.writeFp 3 fd (s.fBits fs) (s.fBits ft)
    (fpDiv s.par.fpFtz (fpDecode (s.fBits fs)) (fpDecode (s.fBits ft)))) := rfl

theorem exec_sqrtS : exec (.sqrtS fd fs) s = .next (s.writeFp 4 fd (s.fBits fs) 0#32
    (fpSqrt s.par.fpFtz (fpDecode (s.fBits fs)))) := rfl

theorem exec_cvtSW : exec (.cvtSW fd fs) s = .next (s.writeFp 5 fd (s.f fs) 0#32 (some (fpOfInt (s.f fs).toInt))) := rfl

end

section
variable {s : State} {i : Instr} {op : Nat} {fd : FReg} {a b : Word}

/-- An instruction of `FP_ARITH` that, under the reference, rounds the number `z`. -/
theorem rounds_of_exec {r r' : Option Word} {z : ℝ} {neg : Bool} (harith : s.par.fpArith = .ieeeNearestEven)
    (hexec : exec i s = .next (s.writeFp op fd a b r)) (hflush : r = r'.map (fpFlush s.par.fpFtz))
    (hround : ∃ w, r' = some w ∧ FpRounded w z neg) :
    ∃ t w, exec i s = .next t ∧ FpRounded w z neg ∧ WritesFpr s t fd (fpFlush s.par.fpFtz w) := by
  obtain ⟨w, rfl, hw⟩ := hround
  have hwrites := writesFpr_writeFp s op fd a b hflush
  have hvalue : s.fpUnflushed op a b (some w) = w := by
    unfold State.fpUnflushed
    rw [harith]
    rfl
  rw [hvalue] at hwrites
  exact ⟨_, w, hexec, hw, hwrites⟩

end

/-! ## The exact numbers that the reference rounds -/

/-- A rounding of `m * 2^e` itself. -/
theorem fpRounded_fpRound_exact (neg : Bool) (m : ℕ) (e : ℤ) :
    FpRounded (fpRound .gradual neg m e false) (signedNat neg m * 2 ^ e) neg := by
  have h := fpRounded_fpRound neg (m := m) (e := e) (sticky := false) le_rfl one_pos (by simp) (by simp) fun _ => rfl
  convert h using 1
  cases neg <;> simp [signedNat]

/-- The sign of a rounded zero matters for a zero alone. -/
theorem FpRounded.of_ne_zero {v : Word} {z : ℝ} {neg neg' : Bool} (h : FpRounded v z neg) (hz : z ≠ 0) : FpRounded v z neg' :=
  ⟨h.sign.trans (by simp [hz]), h.overflow, h.finite⟩

theorem fpRounded_fpSign (neg : Bool) : FpRounded (fpSign neg) 0 neg := by
  have h := fpRounded_fpRound_exact neg 0 0
  rw [fpRound, if_pos rfl] at h
  convert h using 1
  cases neg <;> simp [signedNat]

theorem fpRounded_fpRoundInt (n e : ℤ) (neg : Bool) : FpRounded (fpRoundInt .gradual neg n e) (n * 2 ^ e) neg := by
  rw [fpRoundInt]
  split
  · next hn =>
    rw [hn, Int.cast_zero, zero_mul]
    exact fpRounded_fpSign neg
  · next hn =>
    have hsigned : signedNat (decide (n < 0)) n.natAbs = n := by
      rw [signedNat]
      split <;> rename_i hneg <;> rw [decide_eq_true_eq] at hneg <;> omega
    have h := fpRounded_fpRound_exact (decide (n < 0)) n.natAbs e
    rw [hsigned] at h
    exact h.of_ne_zero (mul_ne_zero (by exact_mod_cast hn) (by positivity))

theorem fpOfInt_rounded (n : ℤ) : FpRounded (fpOfInt n) n false := by
  have h := fpRounded_fpRoundInt n 0 false
  rwa [zpow_zero, mul_one] at h

theorem signedNat_bne_mul (n n' : Bool) (m m' : ℕ) : signedNat (n != n') (m * m') = signedNat n m * signedNat n' m' := by
  cases n <;> cases n' <;> simp [signedNat]

theorem signedNat_not (n : Bool) (m : ℕ) : signedNat (!n) m = -signedNat n m := by cases n <;> simp [signedNat]

section
variable (n n' : Bool) (m m' : ℕ) (e e' : ℤ)

theorem fpAdd_rounded : ∃ w, fpAdd .gradual (.fin n m e) (.fin n' m' e') = some w ∧
    FpRounded w (signedNat n m * 2 ^ e + signedNat n' m' * 2 ^ e') (n && n') := by
  have hshift (i : ℤ) (hi : min e e' ≤ i) : (2 : ℝ) ^ i = 2 ^ (i - min e e').toNat * 2 ^ min e e' := by
    rw [← zpow_natCast, ← zpow_add₀ two_ne_zero, Int.toNat_of_nonneg (by omega), sub_add_cancel]
  refine ⟨_, rfl, ?_⟩
  convert fpRounded_fpRoundInt _ (min e e') (n && n') using 1
  rw [hshift e (min_le_left _ _), hshift e' (min_le_right _ _)]
  push_cast
  ring

theorem fpSub_rounded : ∃ w, fpSub .gradual (.fin n m e) (.fin n' m' e') = some w ∧
    FpRounded w (signedNat n m * 2 ^ e - signedNat n' m' * 2 ^ e') (n && !n') := by
  obtain ⟨w, hw, hround⟩ := fpAdd_rounded n (!n') m m' e e'
  refine ⟨w, hw, ?_⟩
  convert hround using 1
  rw [signedNat_not]
  push_cast
  ring

theorem fpMul_rounded : ∃ w, fpMul .gradual (.fin n m e) (.fin n' m' e') = some w ∧
    FpRounded w (signedNat n m * 2 ^ e * (signedNat n' m' * 2 ^ e')) (n != n') := by
  refine ⟨_, rfl, ?_⟩
  convert fpRounded_fpRound_exact (n != n') (m * m') (e + e') using 1
  rw [signedNat_bne_mul, zpow_add₀ two_ne_zero]
  push_cast
  ring

/-- The quotient is taken to 64 places, of which at least 40 are significant: what is left sets `sticky`. -/
theorem fpDiv_rounded (hm' : m' ≠ 0) (hlt : m' < 2 ^ 24) : ∃ w, fpDiv .gradual (.fin n m e) (.fin n' m' e') = some w ∧
    FpRounded w (signedNat n m * 2 ^ e / (signedNat n' m' * 2 ^ e')) (n != n') := by
  have hpos : 0 < m' := Nat.pos_of_ne_zero hm'
  have hposR : (0 : ℝ) < m' := by exact_mod_cast hpos
  have hrem : ((m * 2 ^ 64 % m' : ℕ) : ℝ) < m' := by exact_mod_cast Nat.mod_lt _ hpos
  have hdiv : (m' : ℝ) * (m * 2 ^ 64 / m' : ℕ) + (m * 2 ^ 64 % m' : ℕ) = m * 2 ^ 64 := by
    exact_mod_cast Nat.div_add_mod (m * 2 ^ 64) m'
  have hlong : (m * 2 ^ 64 % m' != 0) = true → 2 ^ 24 ≤ m * 2 ^ 64 / m' := by
    intro hne
    have hm : m ≠ 0 := by rintro rfl; simp at hne
    rw [Nat.le_div_iff_mul_le hpos]
    calc 2 ^ 24 * m' ≤ 2 ^ 24 * 2 ^ 24 := Nat.mul_le_mul_left _ hlt.le
      _ ≤ 1 * 2 ^ 64 := by norm_num
      _ ≤ m * 2 ^ 64 := Nat.mul_le_mul_right _ (Nat.one_le_iff_ne_zero.mpr hm)
  have hsticky : (m * 2 ^ 64 % m' != 0) = true ↔ (0 : ℝ) < (m * 2 ^ 64 % m' : ℕ) / m' := by
    rw [bne_iff_ne, div_pos_iff_of_pos_right hposR, Nat.cast_pos, Nat.pos_iff_ne_zero]
  have hround := fpRounded_fpRound (n != n') (m := m * 2 ^ 64 / m') (e := e - e' - 64) (by positivity)
    ((div_lt_one hposR).mpr hrem) hsticky hlong fun _ => rfl
  refine ⟨_, by rw [fpDiv, if_neg hm'], ?_⟩
  convert hround using 1
  have hquot : ((m * 2 ^ 64 / m' : ℕ) : ℝ) + (m * 2 ^ 64 % m' : ℕ) / m' = m * 2 ^ 64 / m' := by
    rw [← hdiv]
    field_simp
  rw [hquot, zpow_sub₀ two_ne_zero, zpow_sub₀ two_ne_zero, zpow_ofNat]
  cases n <;> cases n' <;> simp [signedNat] <;> field_simp

end

/-! ## The square root (R228) -/

/-- `isqrt` finds the root of `n` from below, where `r` is that root without its low `k` bits. -/
theorem isqrt_spec (n : ℕ) : ∀ k r : ℕ, r * r ≤ n → n < (r + 2 ^ k) * (r + 2 ^ k) →
    isqrt n k r * isqrt n k r ≤ n ∧ n < (isqrt n k r + 1) * (isqrt n k r + 1)
  | 0, _, hle, hlt => ⟨hle, hlt⟩
  | k + 1, r, hle, hlt => by
    rw [isqrt]
    split
    · next hbit =>
      refine isqrt_spec n k _ hbit ?_
      rwa [pow_succ, mul_two, ← add_assoc] at hlt
    · next hbit => exact isqrt_spec n k r hle (not_le.mp hbit)

/-- A positive operand as an even power of 2 and a significand of at most 25 bits, of which the model takes the root at 32 places
more. -/
theorem fpSqrt_of_pos {m : ℕ} (hm : m ≠ 0) (hlt : m < 2 ^ 24) (e : ℤ) : ∃ (c : ℕ) (j : ℤ), c ≠ 0 ∧ c < 2 ^ 25 ∧
    (m : ℝ) * 2 ^ e = c * (2 ^ j * 2 ^ j) ∧ fpSqrt .gradual (.fin false m e) =
      some (fpRound .gradual false (isqrt (c * 2 ^ 64) 46 0) (j - 32)
        (isqrt (c * 2 ^ 64) 46 0 * isqrt (c * 2 ^ 64) 46 0 != c * 2 ^ 64)) := by
  obtain ⟨j, rfl | rfl⟩ := Int.even_or_odd' e
  · refine ⟨m, j, hm, by omega, ?_, ?_⟩
    · rw [two_mul, zpow_add₀ two_ne_zero]
    · rw [fpSqrt, if_neg hm, if_neg (by simp)]
      simp only [Int.mul_emod_right, if_true]
      rw [show (2 * j - 64) / 2 = j - 32 by omega]
  · refine ⟨2 * m, j, by omega, by omega, ?_, ?_⟩
    · rw [zpow_add_one₀ two_ne_zero, two_mul j, zpow_add₀ two_ne_zero]
      push_cast
      ring
    · rw [fpSqrt, if_neg hm, if_neg (by simp), if_neg (by omega), if_neg (by omega)]
      dsimp only
      rw [show (2 * j + 1 - 1 - 64) / 2 = j - 32 by omega]

/-- The root that the model takes, as a real number: its integer part, and whether there is more. -/
theorem isqrt_real {n : ℕ} (hn : n < 2 ^ 92) : (isqrt n 46 0 : ℝ) ≤ √n ∧ √n < isqrt n 46 0 + 1 ∧
    ((isqrt n 46 0 * isqrt n 46 0 != n) = true ↔ 0 < √n - isqrt n 46 0) := by
  obtain ⟨hle, hgt⟩ := isqrt_spec n 46 0 (Nat.zero_le n) (by omega)
  generalize isqrt n 46 0 = r at hle hgt ⊢
  refine ⟨Real.le_sqrt_of_sq_le ?_, (Real.sqrt_lt' (by positivity)).mpr ?_, ?_⟩
  · rw [sq]
    exact_mod_cast hle
  · rw [sq]
    exact_mod_cast hgt
  · rw [bne_iff_ne, sub_pos, Real.lt_sqrt (by positivity), sq]
    exact_mod_cast (hle.lt_iff_ne).symm

/-- The root of `c * 2^64` has more than 24 bits, so that what is left may set `sticky`. -/
theorem fpSqrt_rounded_of_pos {m : ℕ} (hm : m ≠ 0) (hlt : m < 2 ^ 24) (e : ℤ) :
    ∃ w, fpSqrt .gradual (.fin false m e) = some w ∧ FpRounded w √(m * 2 ^ e) false := by
  obtain ⟨c, j, hc, hc25, hvalue, hsqrt⟩ := fpSqrt_of_pos hm hlt e
  obtain ⟨hle, hgt, hsticky⟩ := isqrt_real (n := c * 2 ^ 64) (by omega)
  have hroot64 : √((c * 2 ^ 64 : ℕ) : ℝ) = √c * 2 ^ 32 := by
    rw [Nat.cast_mul, Nat.cast_pow, Nat.cast_ofNat, Real.sqrt_mul (by positivity),
      show (2 : ℝ) ^ 64 = 2 ^ 32 * 2 ^ 32 by norm_num, Real.sqrt_mul_self (by positivity)]
  have hlong : 2 ^ 24 ≤ isqrt (c * 2 ^ 64) 46 0 := by
    have hgt := (isqrt_spec (c * 2 ^ 64) 46 0 (Nat.zero_le _) (by omega)).2
    by_contra hsmall
    have := Nat.mul_le_mul (not_le.mp hsmall) (not_le.mp hsmall)
    rw [Nat.succ_eq_add_one] at this
    omega
  have hround := fpRounded_fpRound false (e := j - 32) (sub_nonneg.mpr hle) (by linarith) hsticky (fun _ => hlong) fun _ => rfl
  refine ⟨_, hsqrt, ?_⟩
  convert hround using 1
  rw [hvalue, Real.sqrt_mul (by positivity), Real.sqrt_mul_self (by positivity), add_sub_cancel, hroot64, zpow_sub₀ two_ne_zero,
    zpow_ofNat, if_neg Bool.false_ne_true]
  field_simp

theorem fpSqrt_rounded {m : ℕ} (hlt : m < 2 ^ 24) (n : Bool) (e : ℤ) (hx : (0 : ℝ) ≤ signedNat n m * 2 ^ e) :
    ∃ w, fpSqrt .gradual (.fin n m e) = some w ∧ FpRounded w √(signedNat n m * 2 ^ e) n := by
  rcases eq_or_ne m 0 with rfl | hm
  · refine ⟨fpSign n, by rw [fpSqrt, if_pos rfl], ?_⟩
    convert fpRounded_fpSign n using 1
    cases n <;> simp [signedNat]
  · cases n with
    | false => exact_mod_cast fpSqrt_rounded_of_pos hm hlt e
    | true =>
      have hpos : (0 : ℝ) < m * 2 ^ e := mul_pos (by exact_mod_cast Nat.pos_of_ne_zero hm) (by positivity)
      rw [signedNat, if_pos rfl, Int.cast_neg, neg_mul, Int.cast_natCast] at hx
      linarith

/-! ## NaN, infinity and zero (R215) -/

/-- The word that the reference answers with: a result, flushed, or a NaN from the draw `d`. -/
def fpAnswer (z : FtzMode) (d : Word) (r : Option Word) : Word := fpFlush z (r.getD (fpNan d))

theorem fpFlush_fpUnflushed_reference {s : State} (h : s.par.fpArith = .ieeeNearestEven) (z : FtzMode) (op : Nat) (a b : Word)
    (r : Option Word) : fpFlush z (s.fpUnflushed op a b r) = fpAnswer z (Config.draw s.draws) r := by
  unfold State.fpUnflushed
  rw [h]
  rfl

theorem fpIsNan_fpAnswer_none (z : FtzMode) (d : Word) : fpIsNan (fpAnswer z d none) := by
  rw [fpAnswer, Option.getD_none, fpFlush_fpNan]
  exact fpIsNan_fpNan d

@[simp] theorem fpAnswer_fpInf (z : FtzMode) (d : Word) (neg : Bool) : fpAnswer z d (some (fpInf neg)) = fpInf neg :=
  fpFlush_fpInf z neg

@[simp] theorem fpAnswer_fpSign (z : FtzMode) (d : Word) (neg : Bool) : fpAnswer z d (some (fpSign neg)) = fpSign neg :=
  fpFlush_fpSign z neg

theorem eq_fpInf {v : Word} (h : fpIsInf v) : v = fpInf v.msb := by
  obtain ⟨he, hf⟩ := (fpIsInf_iff v).mp h
  obtain ⟨he', hf'⟩ := (fpIsInf_iff _).mp (fpIsInf_fpInf v.msb)
  exact word_ext_fpFields (msb_fpInf _).symm (he.trans he'.symm) (hf.trans hf'.symm)

theorem fpAnswer_of_inf (z : FtzMode) (d : Word) {v : Word} (h : fpIsInf v) : fpAnswer z d (some (fpInf v.msb)) = v :=
  (fpAnswer_fpInf z d v.msb).trans (eq_fpInf h).symm

theorem eq_fpSign {v : Word} (h : fpIsZero v) : v = fpSign v.msb := by
  obtain ⟨he, hf⟩ := (fpIsZero_iff v).mp h
  obtain ⟨he', hf'⟩ := (fpIsZero_iff _).mp (fpIsZero_fpSign v.msb)
  exact word_ext_fpFields (msb_fpSign _).symm (he.trans he'.symm) (hf.trans hf'.symm)

section
variable {a b : Word}

theorem fpOps_of_nan (h : fpIsNan a ∨ fpIsNan b) :
    fpAdd .gradual (fpDecode a) (fpDecode b) = none ∧ fpSub .gradual (fpDecode a) (fpDecode b) = none ∧
    fpMul .gradual (fpDecode a) (fpDecode b) = none ∧ fpDiv .gradual (fpDecode a) (fpDecode b) = none := by
  rcases h with h | h <;> rw [fpDecode_of_nan h]
  · exact ⟨rfl, rfl, rfl, rfl⟩
  · cases fpDecode a <;> exact ⟨rfl, rfl, rfl, rfl⟩

theorem fpOps_of_inf_inf (ha : fpIsInf a) (hb : fpIsInf b) :
    fpAdd .gradual (fpDecode a) (fpDecode b) = (if a.msb = b.msb then some (fpInf a.msb) else none) ∧
    fpSub .gradual (fpDecode a) (fpDecode b) = (if a.msb = b.msb then none else some (fpInf a.msb)) ∧
    fpMul .gradual (fpDecode a) (fpDecode b) = some (fpInf (a.msb != b.msb)) ∧
    fpDiv .gradual (fpDecode a) (fpDecode b) = none := by
  rw [fpDecode_of_inf ha, fpDecode_of_inf hb]
  refine ⟨rfl, ?_, rfl, rfl⟩
  cases a.msb <;> cases b.msb <;> rfl

theorem fpOps_of_inf_value {y : ℚ} (ha : fpIsInf a) (hb : fpValue b = some y) :
    fpAdd .gradual (fpDecode a) (fpDecode b) = some (fpInf a.msb) ∧
    fpSub .gradual (fpDecode a) (fpDecode b) = some (fpInf a.msb) ∧
    (fpIsZero b → fpMul .gradual (fpDecode a) (fpDecode b) = none) ∧
    (¬ fpIsZero b → fpMul .gradual (fpDecode a) (fpDecode b) = some (fpInf (a.msb != b.msb))) ∧
    fpDiv .gradual (fpDecode a) (fpDecode b) = some (fpInf (a.msb != b.msb)) := by
  obtain ⟨m, e, hd, -⟩ := fpDecode_of_fpValue hb
  rw [fpIsZero_iff_of_fin hd, fpDecode_of_inf ha, hd]
  exact ⟨rfl, rfl, fun h => if_pos h, fun h => if_neg h, rfl⟩

theorem fpOps_of_value_inf {x : ℚ} (ha : fpValue a = some x) (hb : fpIsInf b) :
    fpAdd .gradual (fpDecode a) (fpDecode b) = some (fpInf b.msb) ∧
    fpSub .gradual (fpDecode a) (fpDecode b) = some (fpInf (!b.msb)) ∧
    (fpIsZero a → fpMul .gradual (fpDecode a) (fpDecode b) = none) ∧
    (¬ fpIsZero a → fpMul .gradual (fpDecode a) (fpDecode b) = some (fpInf (a.msb != b.msb))) ∧
    fpDiv .gradual (fpDecode a) (fpDecode b) = some (fpSign (a.msb != b.msb)) := by
  obtain ⟨m, e, hd, -⟩ := fpDecode_of_fpValue ha
  rw [fpIsZero_iff_of_fin hd, fpDecode_of_inf hb, hd]
  exact ⟨rfl, rfl, fun h => if_pos h, fun h => if_neg h, rfl⟩

theorem fpDiv_of_zero_zero (ha : fpIsZero a) (hb : fpIsZero b) : fpDiv .gradual (fpDecode a) (fpDecode b) = none := by
  rw [fpDecode_of_zero ha, fpDecode_of_zero hb]
  rfl

theorem fpDiv_of_value_zero {x : ℚ} (ha : fpValue a = some x) (hne : ¬ fpIsZero a) (hb : fpIsZero b) :
    fpDiv .gradual (fpDecode a) (fpDecode b) = some (fpInf (a.msb != b.msb)) := by
  obtain ⟨m, e, hd, -⟩ := fpDecode_of_fpValue ha
  rw [fpIsZero_iff_of_fin hd] at hne
  rw [hd, fpDecode_of_zero hb, fpDiv, if_pos rfl, if_neg hne]

theorem fpSqrt_of_nan (h : fpIsNan a) : fpSqrt .gradual (fpDecode a) = none := by
  rw [fpDecode_of_nan h]
  rfl

/-- A negative operand other than zero has no root, the negative infinity included. -/
theorem fpSqrt_of_neg (hneg : a.msb = true) (hne : ¬ fpIsZero a) : fpSqrt .gradual (fpDecode a) = none := by
  rcases fpClasses a with ha | ha | ⟨x, hx⟩
  · exact fpSqrt_of_nan ha
  · rw [fpDecode_of_inf ha, fpSqrt, if_pos hneg]
  · obtain ⟨m, e, hd, -⟩ := fpDecode_of_fpValue hx
    rw [fpIsZero_iff_of_fin hd] at hne
    rw [hd, fpSqrt, if_neg hne, if_pos hneg]

/-- A zero of either sign and the positive infinity are their own roots. -/
theorem fpAnswer_fpSqrt_self (z : FtzMode) (d : Word) (h : fpIsZero a ∨ (fpIsInf a ∧ a.msb = false)) :
    fpAnswer z d (fpSqrt .gradual (fpDecode a)) = a := by
  rcases h with h | ⟨h, hpos⟩
  · rw [fpDecode_of_zero h, fpSqrt, if_pos rfl, fpAnswer_fpSign, ← eq_fpSign h]
  · rw [fpDecode_of_inf h, fpSqrt, hpos, if_neg (by decide), fpAnswer_fpInf, ← hpos, ← eq_fpInf h]

end

/-! ## The obligations -/

/-- Settles O26: the writes of the six, each flushed, and then R215's cases in the order of the statement. -/
theorem fpArithmeticSpecials : Obligations.FpArithmeticSpecials := by
  intro s fd fs ft a b
  refine ⟨_, _, _, _, _, _, _, _, _, _, _, _,
    exec_addS s fd fs ft, writesFpr_writeFp s _ fd a b (fpAdd_eq_map_fpFlush _ _ _),
    exec_subS s fd fs ft, writesFpr_writeFp s _ fd a b (fpSub_eq_map_fpFlush _ _ _),
    exec_mulS s fd fs ft, writesFpr_writeFp s _ fd a b (fpMul_eq_map_fpFlush _ _ _),
    exec_divS s fd fs ft, writesFpr_writeFp s _ fd a b (fpDiv_eq_map_fpFlush _ _ _),
    exec_sqrtS s fd fs, writesFpr_writeFp s _ fd a _ (fpSqrt_eq_map_fpFlush _ _),
    exec_cvtSW s fd fs, writesFpr_writeFp s _ fd _ _ (fpOfInt_eq_map_fpFlush _ _),
    fun hflush => ?flush, fun harith => ?reference⟩
  case flush =>
    simp only [a, b, State.fBits, hflush, List.forall_mem_cons, List.not_mem_nil, false_imp_iff, implies_true, and_true]
    exact ⟨fpIsZero_of_fpFlush, fpIsZero_of_fpFlush, fpIsZero_of_fpFlush, fpIsZero_of_fpFlush, fpIsZero_of_fpFlush,
      fpIsZero_of_fpFlush, fpIsZero_of_fpFlush, fpIsZero_of_fpFlush⟩
  case reference =>
    simp only [fpFlush_fpUnflushed_reference harith]
    refine ⟨fun h => ?nan, fun ha hb => ?infInf, fun y ha hb => ?infValue, fun x ha hb => ?valueInf, fun ha hb => ?zeroZero,
      fun x ha hne hb => ?valueZero, fun h => ?sqrtNan, fun hneg hne => ?sqrtNeg, fun h => ?sqrtSelf⟩
    case nan =>
      obtain ⟨hadd, hsub, hmul, hdiv⟩ := fpOps_of_nan h
      rw [hadd, hsub, hmul, hdiv]
      exact ⟨fpIsNan_fpAnswer_none _ _, fpIsNan_fpAnswer_none _ _, fpIsNan_fpAnswer_none _ _, fpIsNan_fpAnswer_none _ _⟩
    case infInf =>
      obtain ⟨hadd, hsub, hmul, hdiv⟩ := fpOps_of_inf_inf ha hb
      rw [hadd, hsub, hmul, hdiv, fpAnswer_fpInf]
      refine ⟨fpIsNan_fpAnswer_none _ _, fpIsInf_fpInf _, msb_fpInf _, ?_⟩
      by_cases hs : a.msb = b.msb
      · rw [if_pos hs, if_pos hs, if_pos hs]
        exact ⟨fpAnswer_of_inf _ _ ha, fpIsNan_fpAnswer_none _ _⟩
      · rw [if_neg hs, if_neg hs, if_neg hs]
        exact ⟨fpIsNan_fpAnswer_none _ _, fpAnswer_of_inf _ _ ha⟩
    case infValue =>
      obtain ⟨hadd, hsub, hmulZero, hmul, hdiv⟩ := fpOps_of_inf_value ha hb
      rw [hadd, hsub, hdiv, fpAnswer_of_inf _ _ ha, fpAnswer_fpInf]
      refine ⟨rfl, rfl, fpIsInf_fpInf _, msb_fpInf _, fun hz => ?_, fun hz => ?_⟩
      · rw [hmulZero hz]
        exact fpIsNan_fpAnswer_none _ _
      · rw [hmul hz, fpAnswer_fpInf]
        exact ⟨fpIsInf_fpInf _, msb_fpInf _⟩
    case valueInf =>
      obtain ⟨hadd, hsub, hmulZero, hmul, hdiv⟩ := fpOps_of_value_inf ha hb
      rw [hadd, hsub, hdiv, fpAnswer_of_inf _ _ hb, fpAnswer_fpInf, fpAnswer_fpSign]
      refine ⟨rfl, fpIsInf_fpInf _, msb_fpInf _, fpIsZero_fpSign _, msb_fpSign _, fun hz => ?_, fun hz => ?_⟩
      · rw [hmulZero hz]
        exact fpIsNan_fpAnswer_none _ _
      · rw [hmul hz, fpAnswer_fpInf]
        exact ⟨fpIsInf_fpInf _, msb_fpInf _⟩
    case zeroZero =>
      rw [fpDiv_of_zero_zero ha hb]
      exact fpIsNan_fpAnswer_none _ _
    case valueZero =>
      rw [fpDiv_of_value_zero ha hne hb, fpAnswer_fpInf]
      exact ⟨fpIsInf_fpInf _, msb_fpInf _⟩
    case sqrtNan =>
      rw [fpSqrt_of_nan h]
      exact fpIsNan_fpAnswer_none _ _
    case sqrtNeg =>
      rw [fpSqrt_of_neg hneg hne]
      exact fpIsNan_fpAnswer_none _ _
    case sqrtSelf => exact fpAnswer_fpSqrt_self _ _ h

/-- Settles O27: each instruction's exact number, as a significand and an exponent that the model rounds once. -/
theorem fpResultsRounded : Obligations.FpResultsRounded := by
  intro s fd fs ft harith a b gives
  refine ⟨?cvt, fun x hx hnonneg => ?sqrt, fun x y hx hy => ?binary⟩
  case cvt =>
    exact rounds_of_exec harith (exec_cvtSW s fd fs) (fpOfInt_eq_map_fpFlush _ _) ⟨_, rfl, fpOfInt_rounded _⟩
  case sqrt =>
    obtain ⟨m, e, hd, rfl⟩ := fpDecode_of_fpValue hx
    obtain ⟨-, hm, -, -⟩ := fpDecode_fin_bounds hd
    have hnonneg : (0 : ℝ) ≤ signedNat a m * 2 ^ e := by
      have := Rat.cast_nonneg (K := ℝ).mpr hnonneg
      push_cast at this
      exact this
    have hround := fpSqrt_rounded hm a e hnonneg
    rw [← hd] at hround
    refine rounds_of_exec harith (exec_sqrtS s fd fs) (fpSqrt_eq_map_fpFlush _ _) ?_
    push_cast
    exact hround
  case binary =>
    obtain ⟨m, e, hdx, rfl⟩ := fpDecode_of_fpValue hx
    obtain ⟨m', e', hdy, rfl⟩ := fpDecode_of_fpValue hy
    obtain ⟨-, hm', -, -⟩ := fpDecode_fin_bounds hdy
    have hadd := fpAdd_rounded a b m m' e e'
    have hsub := fpSub_rounded a b m m' e e'
    have hmul := fpMul_rounded a b m m' e e'
    have hdiv := fun h => fpDiv_rounded a b m m' e e' h hm'
    rw [← hdx, ← hdy] at hadd hsub hmul hdiv
    refine ⟨?add, ?sub, ?mul, fun hne => ?div⟩ <;> dsimp only [gives] <;> push_cast
    case add => exact rounds_of_exec harith (exec_addS s fd fs ft) (fpAdd_eq_map_fpFlush _ _ _) hadd
    case sub => exact rounds_of_exec harith (exec_subS s fd fs ft) (fpSub_eq_map_fpFlush _ _ _) hsub
    case mul => exact rounds_of_exec harith (exec_mulS s fd fs ft) (fpMul_eq_map_fpFlush _ _ _) hmul
    case div =>
      have hm0 : m' ≠ 0 := by
        rintro rfl
        exact hne (by cases b <;> simp [signedNat])
      exact rounds_of_exec harith (exec_divS s fd fs ft) (fpDiv_eq_map_fpFlush _ _ _) (hdiv hm0)

end Sys2Proof.Machine
end

section
/-! SUPPORT. The refused groups: each of the eighteen instructions is the model's one refusal, whose final state is a stop after the
pc advance. -/

namespace Sys2Proof.Machine

/-- The refusal of R261, with the final state of R283 in the frame of a stop. -/
theorem refuse_stops (s : State) (g : RefusedGroup) (w : Word) :
    ∃ t, s.refuse g w = .refused (.refusedGroup g w s.cpu.pc t) ∧ StopsAs s t (.refused g w s.cpu.pc) :=
  ⟨_, rfl, stopsAs_advance s (.refused g w s.cpu.pc)⟩

/-- Settles O31: the instruction of each group is the refusal of that group. -/
theorem refusedGroups : Obligations.RefusedGroups := by
  intro s w c hc
  have hrefuse : exec c.1 s = s.refuse c.2 w := by fin_cases hc <;> rfl
  rw [hrefuse]
  exact refuse_stops s c.2 w

end Sys2Proof.Machine
end

section
/-! SUPPORT. What a halt leaves, and what no step takes back: both follow from what every instruction and every step is known
to do. -/

namespace Sys2Proof.Machine

/-- An instruction leaves the run status alone, or stops after the pc advance. -/
theorem Frame.run_eq_or_stops {i : Instr} {s t : State} (f : Frame i s t) : t.run = s.run ∨ ∃ r, StopsAs s t r := by
  cases f with
  | reg h => exact .inl h.run
  | fpr h => exact .inl h.run
  | hiLo _ h => exact .inl h.run
  | fcr31 _ h => exact .inl h.run
  | store _ h => subst h; exact .inl rfl
  | transfer _ h => exact .inl h.run
  | stop h => exact .inr ⟨_, h⟩

/-- Settles O32: of the frames that an instruction can have, only that of a stop leaves a machine that was running halted. -/
theorem haltLeavesOnlyTheAdvance : Obligations.HaltLeavesOnlyTheAdvance := by
  intro i s t r hrun hexec hhalt
  obtain hsame | ⟨r', hstop⟩ := (exec_frame hexec).run_eq_or_stops
  · cases hhalt.symm.trans (hsame.trans hrun)
  · cases hhalt.symm.trans hstop.run
    exact hstop

/-- Settles O38: time, draws and the parameters are among the things that every step keeps. -/
theorem timeNeverGoesBack : Obligations.TimeNeverGoesBack := fun _ _ h =>
  have hk := Kept.of_step h
  ⟨hk.cycles, hk.draws, hk.par⟩

end Sys2Proof.Machine
end

section
/-! SUPPORT. The event queue (R297, R298): which event is first, when it is due, and the step that fires it. -/

namespace Sys2Proof.Machine

/-! ## The first event -/

/-- What the rest of the queue makes of the first event: it stays first unless one behind it is due earlier. -/
theorem firstEvent_cons_cases (e : Event) (es : List Event) :
    (es = [] ∧ firstEvent (e :: es) = some e) ∨
    (∃ d, firstEvent es = some d ∧ d.due < e.due ∧ firstEvent (e :: es) = some d) ∨
    (∃ d, firstEvent es = some d ∧ e.due ≤ d.due ∧ firstEvent (e :: es) = some e) := by
  cases hd : firstEvent es with
  | none =>
    cases es with
    | nil => exact .inl ⟨rfl, rfl⟩
    | cons d ds =>
      rw [firstEvent] at hd
      split at hd
      · cases hd
      · split at hd <;> cases hd
  | some d =>
    by_cases hlt : d.due < e.due
    · exact .inr (.inl ⟨d, rfl, hlt, by simp [firstEvent, hd, hlt]⟩)
    · exact .inr (.inr ⟨d, rfl, Nat.le_of_not_lt hlt, by simp [firstEvent, hd, hlt]⟩)

/-- There is a first event unless the queue is empty. -/
@[simp] theorem firstEvent_eq_none_iff (es : List Event) : firstEvent es = none ↔ es = [] := by
  cases es with
  | nil => simp [firstEvent]
  | cons e es =>
    obtain ⟨-, h⟩ | ⟨_, -, -, h⟩ | ⟨_, -, -, h⟩ := firstEvent_cons_cases e es <;> simp [h]

/-- The first event splits the queue: what was scheduled before it is due later, and nothing is due earlier. -/
theorem firstEvent_split : ∀ {es : List Event} {e : Event}, firstEvent es = some e →
    ∃ before after, es = before ++ e :: after ∧ (∀ d ∈ before, e.due < d.due) ∧ ∀ d ∈ after, e.due ≤ d.due
  | e' :: es, e, h => by
    obtain ⟨rfl, hf⟩ | ⟨d, hd, hlt, hf⟩ | ⟨d, hd, hle, hf⟩ := firstEvent_cons_cases e' es <;> cases hf.symm.trans h
    · exact ⟨[], [], rfl, by simp, by simp⟩
    · obtain ⟨before, after, rfl, hb, ha⟩ := firstEvent_split hd
      exact ⟨e' :: before, after, rfl, List.forall_mem_cons.mpr ⟨hlt, hb⟩, ha⟩
    · obtain ⟨before, after, rfl, hb, ha⟩ := firstEvent_split hd
      refine ⟨[], _, rfl, by simp, fun x hx => hle.trans ?_⟩
      obtain hx | rfl | hx := List.mem_append.mp hx |>.imp_right List.mem_cons.mp
      · exact (hb x hx).le
      · exact le_rfl
      · exact ha x hx

/-- No event is due before the first. -/
theorem firstEvent_due_le {es : List Event} {e d : Event} (h : firstEvent es = some e) (hd : d ∈ es) : e.due ≤ d.due := by
  obtain ⟨before, after, rfl, hb, ha⟩ := firstEvent_split h
  obtain hd | rfl | hd := List.mem_append.mp hd |>.imp_right List.mem_cons.mp
  · exact (hb d hd).le
  · exact le_rfl
  · exact ha d hd

/-! ## The event that is due -/

/-- The event that is due is the first one, at its time, in a process that is not closing (R296). -/
theorem State.dueEvent_eq_some_iff (s : State) (e : Event) :
    s.dueEvent = some e ↔ s.kernel.closing = false ∧ firstEvent s.kernel.events = some e ∧ e.due ≤ s.cycles := by
  unfold State.dueEvent
  cases s.kernel.closing
  · cases firstEvent s.kernel.events with
    | none => simp
    | some d =>
      have hiff : d.due ≤ s.cycles ∧ d = e ↔ d = e ∧ e.due ≤ s.cycles :=
        ⟨fun ⟨h, he⟩ => ⟨he, he ▸ h⟩, fun ⟨he, h⟩ => ⟨he ▸ h, he⟩⟩
      simpa only [Bool.false_eq_true, if_false, Option.ite_none_right_eq_some, Option.some.injEq, true_and] using hiff
  · simp

/-- With nothing due in a process that is not closing, every pending event lies in the future. -/
theorem State.lt_due_of_dueEvent_eq_none {s : State} (hc : s.kernel.closing = false) (h : s.dueEvent = none) {d : Event}
    (hd : d ∈ s.kernel.events) : s.cycles < d.due := by
  cases he : firstEvent s.kernel.events with
  | none => simp [(firstEvent_eq_none_iff _).mp he] at hd
  | some e =>
    have hlt : s.cycles < e.due := Nat.lt_of_not_le fun hle => by
      cases h.symm.trans ((s.dueEvent_eq_some_iff e).mpr ⟨hc, he, hle⟩)
    exact hlt.trans_le (firstEvent_due_le he hd)

/-! ## The step that fires it -/

/-- An event that is due comes before whatever else the step would do (R298). -/
theorem State.orDue_of_due {s : State} {e : Event} (h : s.dueEvent = some e) (t : State) : s.orDue t = s.fireEvent e := by
  simp [State.orDue, h]

/-- With no event due, the step does what it would do. -/
theorem State.orDue_of_none {s : State} (h : s.dueEvent = none) (t : State) : s.orDue t = t := by
  simp [State.orDue, h]

theorem State.runStep_of_due {s : State} {e : Event} (h : s.dueEvent = some e) : s.runStep = .next (s.fireEvent e) := by
  simp [State.runStep, h]

theorem State.idleStep_of_due {s : State} {e : Event} (h : s.dueEvent = some e) : s.idleStep = s.fireEvent e := by
  obtain ⟨hc, -, -⟩ := (s.dueEvent_eq_some_iff e).mp h
  rw [State.idleStep, if_neg (by simp [hc]), State.orDue_of_due h]

/-- A step of each kind that R298 has an event come before fires the event that is due. -/
theorem step_of_due {s : State} {e : Event} (h : s.dueEvent = some e)
    (hrun : s.run = .running ∨ (∃ code, s.run = .inHost (.hleCall code)) ∨ s.run = .inHost .callbackReturn ∨
      (s.run = .notStepping ∧ s.loader = none)) : step s = .next (s.fireEvent e) := by
  obtain hrun | ⟨code, hrun⟩ | hrun | ⟨hrun, hload⟩ := hrun
  · simp [step, hrun, State.runStep_of_due h]
  · simp [step, hrun, State.hostStep, State.orDue_of_due h]
  · simp [step, hrun, State.hostStep, State.orDue_of_due h]
  · simp [step, hrun, hload, State.idleStep_of_due h]

/-- Settles O53: the split of the queue at its first event, when that event is due, and the step that fires it. -/
theorem eventOrder : Obligations.EventOrder := by
  refine ⟨fun es e => firstEvent_split, fun s hc => ⟨fun e he => ?_, fun h d hd => ?_⟩, fun s e => step_of_due⟩
  · exact ((s.dueEvent_eq_some_iff e).mp he).2
  · exact State.lt_due_of_dueEvent_eq_none hc h hd

end Sys2Proof.Machine
end

section
/-! SUPPORT. The hand-over to the kernel agent and the return from it (R286 to R290): the callback return address, the poison of the
argument registers and the end of a host call. -/

namespace Sys2Proof.Machine

/-! ## The current thread -/

theorem Kernel.currentThread?_of_current {k : Kernel} {c : Nat} {t : Thread} (hc : k.current = some c)
    (ht : k.thread? c = some t) : k.currentThread? = some (c, t) := by
  simp [Kernel.currentThread?, hc, ht]

theorem Kernel.currentThread?_of_none {k : Kernel} (hc : k.current = none) : k.currentThread? = none := by
  simp [Kernel.currentThread?, hc]

/-- The current thread decides whether a callback is in flight (R290). -/
theorem Kernel.callbackInFlight_of_current {k : Kernel} {c : Nat} {t : Thread} (hc : k.current = some c)
    (ht : k.thread? c = some t) : k.callbackInFlight = !t.callbackStack.isEmpty := by
  simp [Kernel.callbackInFlight, Kernel.currentThread?_of_current hc ht]

theorem Kernel.callbackInFlight_of_none {k : Kernel} (hc : k.current = none) : k.callbackInFlight = false := by
  simp [Kernel.callbackInFlight, Kernel.currentThread?_of_none hc]

theorem Kernel.currentRuns_of_run {k : Kernel} {c : Nat} {t : Thread} (hc : k.current = some c)
    (ht : k.thread? c = some t) (hr : t.state = .run) : k.currentRuns = true := by
  simp [Kernel.currentRuns, Kernel.currentThread?_of_current hc ht, hr]

/-! ## The callback return address (R284, R290) -/

theorem State.cpuStep_callbackReturn {s : State} (hpc : s.cpu.pc = s.par.callbackReturnAddr)
    (hf : s.kernel.callbackInFlight = true) : s.cpuStep = .next (s.enterHost .callbackReturn) := by
  simp [State.cpuStep, hpc, hf]

theorem State.cpuStep_strayCallbackReturn {s : State} (hpc : s.cpu.pc = s.par.callbackReturnAddr)
    (hf : s.kernel.callbackInFlight = false) : s.cpuStep = .next (s.halted (.strayCallbackReturn s.cpu.pc)) := by
  simp [State.cpuStep, State.halt, hpc, hf]

/-- Settles O41: the step is a CPU step, which fetches nothing at that address and asks only whether a callback is in flight. -/
theorem callbackReturnAddress : Obligations.CallbackReturnAddress := by
  intro s hrun hdue hreq hpc
  rw [step_of_running hrun hdue hreq]
  refine ⟨fun c t hc ht hstack => ?_, fun hnone => ?_⟩
  · exact State.cpuStep_callbackReturn hpc (by simpa [Kernel.callbackInFlight_of_current hc ht] using hstack)
  · have hf : s.kernel.callbackInFlight = false := by
      obtain hc | ⟨c, t, hc, ht, hstack⟩ := hnone
      · exact Kernel.callbackInFlight_of_none hc
      · simp [Kernel.callbackInFlight_of_current hc ht, hstack]
    exact ⟨_, State.cpuStep_strayCallbackReturn hpc hf, halts_halted s _⟩

/-! ## The poison (R287) -/

theorem argReg_toNat {i : Nat} (h : i < 8) : (argReg i).toNat = 4 + i := by
  simp only [argReg, BitVec.toNat_ofNat]
  omega

/-- The registers after the poison of the first `n` argument registers: those hold draws, in order, and the others are as before. -/
theorem Context.x_poisonFrom (base : Nat) (c : Context) (q : Reg) : ∀ n ≤ 8,
    (poisonFrom base n c).x q =
      if 4 ≤ q.toNat ∧ q.toNat < 4 + n then Config.draw (base + (q.toNat - 4)) else c.x q
  | 0, _ => by rw [if_neg (by omega)]; rfl
  | n + 1, hn => by
    have hreg : (argReg n).toNat = 4 + n := argReg_toNat (by omega)
    by_cases hq : q = argReg n
    · have hne : argReg n ≠ 0#5 := fun h => by rw [h, BitVec.toNat_ofNat] at hreg; omega
      subst hq
      rw [if_pos (by omega), poisonFrom, Context.x_setX_same _ _ _ hne, hreg, Nat.add_sub_cancel_left]
    · have hlt : q.toNat ≠ 4 + n := fun h => hq (BitVec.eq_of_toNat_eq (h.trans hreg.symm))
      rw [poisonFrom, Context.x_setX_other _ _ _ _ hq, Context.x_poisonFrom base c q n (by omega)]
      exact if_congr (by omega) rfl rfl

theorem State.x_poison (s : State) (q : Reg) :
    s.poison.x q = if 4 ≤ q.toNat ∧ q.toNat < 12 then Config.draw (s.draws + (q.toNat - 4)) else s.x q :=
  Context.x_poisonFrom s.draws s.cpu q 8 (Nat.le_refl 8)

/-- A register write is a change of the register file. -/
theorem Context.setX_eq (c : Context) (r : Reg) (v : Word) : c.setX r v = { c with gpr := (c.setX r v).gpr } := by
  unfold Context.setX
  split <;> rfl

/-- The poison is a change of the register file. -/
theorem poisonFrom_eq (base : Nat) (c : Context) : ∀ n, poisonFrom base n c = { c with gpr := (poisonFrom base n c).gpr }
  | 0 => rfl
  | n + 1 => by rw [poisonFrom, Context.setX_eq, poisonFrom_eq base c n]

/-! ## A host call that does nothing (R286, R288) -/

/-- An import index with no entry has the unimplemented behaviour, with the poison (R288). -/
theorem State.importOf_missing {s : State} {code : BitVec 20} (h : s.kernel.imports[code.toNat]? = none) :
    s.importOf code = (.unimplemented, false) := by
  simp [State.importOf, h]

/-- An unimplemented host call returns 0, poisons the argument registers and ends (R286 steps 4 to 6). -/
theorem State.hostCall_missing {s : State} {code : BitVec 20} (h : s.kernel.imports[code.toNat]? = none) :
    s.hostCall code = (s.setX 2#5 0#32).poison.endHost none := by
  rw [State.hostCall, State.importOf_missing h]
  rfl

/-- A host action that asks for no scheduler, of a thread that is RUN, goes on with that thread (R286 step 6). -/
theorem State.endHost_resume {s : State} (hclosing : s.kernel.closing = false)
    (hreq : s.kernel.reschedRequested = false) (hruns : s.kernel.currentRuns = true) : s.endHost none = s.resume := by
  simp [State.endHost, hclosing, hreq, hruns]

/-- With no event due, a host call is the kernel agent's action (R286). -/
theorem step_of_hleCall {s : State} {code : BitVec 20} (hrun : s.run = .inHost (.hleCall code)) (hdue : s.dueEvent = none) :
    step s = .next (s.hostCall code) := by
  simp [step, hrun, State.hostStep, State.orDue_of_none hdue]

/-- The state after an unimplemented host call whose thread goes on. -/
def State.afterMissing (s : State) : State := (s.setX 2#5 0#32).poison.resume

theorem State.x_afterMissing (s : State) (q : Reg) :
    s.afterMissing.x q =
      if 4 ≤ q.toNat ∧ q.toNat < 12 then Config.draw (s.draws + (q.toNat - 4)) else (s.setX 2#5 0#32).x q :=
  State.x_poison (s.setX 2#5 0#32) q

/-- Only the register file of the live context changes. -/
theorem State.afterMissing_cpu (s : State) : s.afterMissing.cpu = { s.cpu with gpr := s.afterMissing.cpu.gpr } := by
  have h : s.afterMissing.cpu = poisonFrom s.draws 8 (s.cpu.setX 2#5 0#32) := rfl
  rw [h, poisonFrom_eq, Context.setX_eq]

/-- Settles O40: the call ends at once, and what it has written is register 2 and the argument registers. -/
theorem missingImportReturnsZero : Obligations.MissingImportReturnsZero := by
  intro s code c th hrun himport hclosing hdue hreq hcur hth hst
  have hstep : step s = .next s.afterMissing := by
    rw [step_of_hleCall hrun hdue, State.hostCall_missing himport]
    exact congrArg _ (State.endHost_resume hclosing hreq (Kernel.currentRuns_of_run hcur hth hst))
  have hcpu := s.afterMissing_cpu
  have hfpu : SameFpu s s.afterMissing := ⟨fun q => by rw [State.f, hcpu]; rfl, by rw [hcpu]⟩
  refine ⟨_, hstep, rfl, ?_, fun r hr hout => ?_, fun k hk => ⟨s.draws + k, ?_, ?_, ?_⟩, by rw [hcpu], by rw [hcpu],
    by rw [hcpu], by rw [hcpu], hfpu, ⟨fun _ => rfl, rfl⟩, rfl, rfl⟩
  · rw [State.x_afterMissing, if_neg (by decide), State.x_setX, if_neg (by decide), if_pos rfl]
  · rw [State.x_afterMissing, if_neg (by omega)]
    exact Context.x_setX_other s.cpu 2#5 r 0#32 hr
  · exact Nat.le_add_right _ _
  · exact Nat.add_lt_add_left hk s.draws
  · have hreg : (BitVec.ofNat 5 (4 + k)).toNat = 4 + k := argReg_toNat hk
    rw [State.x_afterMissing, hreg, if_pos (by omega), Nat.add_sub_cancel_left]

end Sys2Proof.Machine
end

section
/-! SUPPORT. The scheduler's invariant (R309, R311) through the step: the boot, and each branch of `step`. The kernel's
operations, the host calls and the events have their lemmas in Laws/Sched.lean and Laws/HostSched.lean. -/

namespace Sys2Proof.Machine

@[simp] theorem State.finishStep_kernel (s : State) : s.finishStep.kernel = s.kernel := by
  unfold State.finishStep
  split <;> rfl

namespace SchedKept

variable {s t : State}

/-! ## Instructions -/

/-- No instruction reaches the kernel. -/
theorem of_exec {i : Instr} (h : exec i s = .next t) : SchedKept s t := of_kernel (exec_frame h).agents.kernel

theorem of_finishOutcome {o : Out} (ho : ∀ u, o = .next u → SchedKept s u) (h : finishOutcome o = .next t) :
    SchedKept s t := by
  cases o with
  | next u => cases h; exact (ho u rfl).trans (of_kernel u.finishStep_kernel)
  | fault r => cases h
  | refused r => cases h

/-- A CPU step: the entry to the host at the callback return address, a halt, or an instruction (R25, R284, R290). -/
theorem of_cpuStep (h : s.cpuStep = .next t) : SchedKept s t := by
  unfold State.cpuStep at h
  split at h
  · split at h <;> cases h <;> exact of_kernel rfl
  · split at h
    · cases h; exact of_kernel rfl
    · split at h
      · cases h; exact of_kernel rfl
      · exact of_finishOutcome (fun _ => of_exec) h

/-- What comes before a CPU step, or the CPU step (R298). -/
theorem of_runStep (h : s.runStep = .next t) (w : SchedWf s.kernel) : SchedWf t.kernel := by
  unfold State.runStep at h
  split at h
  · cases h; exact fireEvent s _ w
  · split at h
    · cases h; exact (reschedule s false).wf w
    · exact (of_cpuStep h).wf w

/-! ## The host, and the machine that does not step -/

theorem orDue (w : SchedWf s.kernel) (ht : SchedWf t.kernel) : SchedWf (s.orDue t).kernel := by
  unfold State.orDue
  split
  · exact fireEvent s _ w
  · exact ht

theorem hostStep (e : HostEvent) (w : SchedWf s.kernel) : SchedWf (s.hostStep e).kernel := by
  cases e with
  | hleCall code => exact orDue w (hostCall s code w)
  | callbackReturn => exact orDue w ((SchedKept.callbackReturn s).wf w)
  | geLists rest => exact (geStep s rest).wf w
  | script rest => exact scriptStep s rest w

theorem idleStep (w : SchedWf s.kernel) : SchedWf s.idleStep.kernel := by
  unfold State.idleStep
  split
  · exact w
  · refine orDue w ?_
    split
    · exact (reschedule s false).wf w
    · split <;> exact w

/-! ## The boot (R404) -/

theorem of_placeSegment {name : String} {g : Segment} (h : s.placeSegment name g = some t) : SchedKept s t := by
  unfold State.placeSegment at h
  split at h
  · cases h; exact refl s
  · split at h
    · cases h
    · split at h
      · cases h
      · rename_i a _
        have ha : SchedKept s (s.withKernel fun k => { k with userAllocator := a }) := of_objects rfl rfl rfl
        split at h <;> cases h
        · exact of_kernel rfl
        · exact ha.trans (writeGuest _ _ _ _ ‹_›)

theorem of_placeSegments {name : String} : ∀ (gs : List Segment) {s t : State}, s.placeSegments name gs = some t →
    SchedKept s t
  | [], s, _, h => by cases h; exact refl s
  | g :: gs, s, t, h => by
    unfold State.placeSegments at h
    split at h
    · cases h; exact refl s
    · split at h
      · cases h
      · exact (of_placeSegment ‹_›).trans (of_placeSegments gs h)

theorem rewriteStub (s : State) (b : Stub) : SchedKept s (s.rewriteStub b) := by
  unfold State.rewriteStub
  simp only
  split
  · exact of_objects rfl rfl rfl
  · rename_i s1 h1
    have k1 := State.storeChecked_kernel h1
    have hs : SchedKept s s1 := of_objects (by rw [k1]; rfl) (by rw [k1]; rfl) (by rw [k1]; rfl)
    split
    · exact hs.trans (of_kernel rfl)
    · exact hs.trans (of_kernel (State.storeChecked_kernel ‹_›))

theorem rewriteStubs : ∀ (bs : List Stub) (s : State), SchedKept s (s.rewriteStubs bs)
  | [], s => refl s
  | b :: bs, s => by
    unfold State.rewriteStubs
    split
    · exact refl s
    · exact (rewriteStub s b).trans (rewriteStubs bs _)

/-- The main thread is created DORMANT, started and switched in (R404 step 6). -/
theorem of_startMain {img : LoadImage} (h : s.startMain img = some t) (w : SchedWf s.kernel) : SchedWf t.kernel := by
  unfold State.startMain at h
  split at h
  · cases h
  · rename_i m k hk
    have w1 : SchedWf k := (Kernel.create_schedWf hk fun p => ⟨nofun, nofun⟩).1 w
    split at h
    · split at h
      · cases h
      · rename_i uid s1 h1
        obtain ⟨w2, th, hth, hdormant⟩ := State.createThread_schedWf h1
        simp only [hth] at h
        split at h <;> cases h
        · exact w2 w1
        · have hstart := startThread s1 _ uid th _ _ ‹_› hth (by rw [hdormant]; decide)
          exact (hstart.trans (reschedule _ false)).wf (w2 w1)
    · cases h

theorem of_boot {img : LoadImage} (h : s.boot img = some t) (w : SchedWf s.kernel) : SchedWf t.kernel := by
  unfold State.boot at h
  split at h
  · cases h
  · rename_i s1 h1
    have k0 : SchedKept s { s with loader := none, kernel := { s.kernel with imports := img.imports } } :=
      of_objects rfl rfl rfl
    have w2 := ((k0.trans (of_placeSegments _ h1)).trans (rewriteStubs img.stubs s1)).wf w
    simp only at h
    split at h
    · cases h; exact w2
    · exact of_startMain h w2

/-! ## The step -/

/-- The invariant through every step, by the run status that says what the step does. -/
theorem of_step (h : step s = .next t) (w : SchedWf s.kernel) : SchedWf t.kernel := by
  unfold step at h
  split at h
  · cases h
  · cases h
  · cases h; exact hostStep _ w
  · exact of_runStep h w
  · split at h
    · cases h; exact idleStep w
    · split at h <;> cases h
      exact of_boot ‹_› w

end SchedKept

/-- Settles O37: the invariant goes through each kind of step. -/
theorem readyQueueInvariant : Obligations.ReadyQueueInvariant := fun _ _ w h => SchedKept.of_step h w

end Sys2Proof.Machine
end

section
/-! SUPPORT. The scan of the ready queue (R311, R313) and the allocation of a UID (R306). -/

namespace Sys2Proof.Machine

/-! ## The first ready thread (R313) -/

/-- The scan passes over empty levels and answers the head of the first that is not empty. -/
theorem firstOf_eq_some_iff (n : Nat) : ∀ ls : List (List Nat), firstOf ls = some n ↔
    ∃ p : Nat, (∃ rest, ls[p]? = some (n :: rest)) ∧ ∀ q, q < p → ls[q]? = some []
  | [] => by simp [firstOf]
  | [] :: ls => by
    rw [firstOf, firstOf_eq_some_iff n ls]
    constructor
    · rintro ⟨p, hp, hq⟩
      refine ⟨p + 1, by simpa using hp, fun q hlt => ?_⟩
      cases q with
      | zero => rfl
      | succ q => simpa using hq q (by omega)
    · rintro ⟨p, ⟨rest, hp⟩, hq⟩
      cases p with
      | zero => simp at hp
      | succ p => exact ⟨p, ⟨rest, by simpa using hp⟩, fun q hlt => by simpa using hq (q + 1) (by omega)⟩
  | (u :: l) :: ls => by
    constructor
    · intro h
      cases h
      exact ⟨0, ⟨l, rfl⟩, fun q hq => absurd hq (Nat.not_lt_zero q)⟩
    · rintro ⟨p, ⟨rest, hp⟩, hq⟩
      cases p with
      | zero => simp at hp; simp [firstOf, hp.1]
      | succ p => have := hq 0 (by omega); simp at this

/-- The scan answers nothing exactly when every level is empty. -/
theorem firstOf_eq_none_iff : ∀ ls : List (List Nat), firstOf ls = none ↔ ∀ l ∈ ls, l = []
  | [] => by simp [firstOf]
  | [] :: ls => by rw [firstOf, firstOf_eq_none_iff ls]; simp
  | (u :: l) :: ls => by simp [firstOf]

/-- Settles O45: the scan of the levels as a list, read as the vector's. -/
theorem highestPriorityFirst : Obligations.HighestPriorityFirst := by
  intro k
  have hlen : k.ready.toList.length = 128 := k.ready.length_toList
  have hget : ∀ (p : Nat) (hp : p < 128), k.ready.toList[p]? = some k.ready[p] := fun p hp => by
    rw [List.getElem?_eq_getElem (by omega), Vector.getElem_toList]
  refine ⟨fun n => ?_, ?_⟩
  · rw [Kernel.firstReady, firstOf_eq_some_iff]
    constructor
    · rintro ⟨p, ⟨rest, hp⟩, hq⟩
      have hlt : p < 128 := hlen ▸ (List.getElem?_eq_some_iff.mp hp).1
      refine ⟨⟨p, hlt⟩, ⟨rest, Option.some.inj ((hget p hlt).symm.trans hp)⟩, fun q hqp => ?_⟩
      exact Option.some.inj ((hget q q.isLt).symm.trans (hq q hqp))
    · rintro ⟨p, ⟨rest, hp⟩, hq⟩
      refine ⟨p, ⟨rest, (hget p p.isLt).trans (congrArg some hp)⟩, fun q hqp => ?_⟩
      have hlt : q < 128 := Nat.lt_trans hqp p.isLt
      exact (hget q hlt).trans (congrArg some (hq ⟨q, hlt⟩ hqp))
  · rw [Kernel.firstReady, firstOf_eq_none_iff]
    constructor
    · exact fun h p => h _ (Vector.mem_toList_iff.mpr (Vector.getElem_mem p.isLt))
    · intro h l hl
      obtain ⟨p, hp, rfl⟩ := Vector.mem_iff_getElem.mp (Vector.mem_toList_iff.mp hl)
      exact h ⟨p, hp⟩

/-! ## UID allocation (R306) -/

theorem nextSlot_mem {slots i : Nat} (h : 1 < slots) : 0 < nextSlot slots i ∧ nextSlot slots i < slots := by
  unfold nextSlot
  split <;> omega

/-- The slot that the scan answers is a UID. -/
theorem scanSlots_mem {f : Nat → Bool} {slots u : Nat} (hslots : 1 < slots) : ∀ {n i : Nat}, 0 < i → i < slots →
    scanSlots f slots n i = some u → 0 < u ∧ u < slots
  | 0, _, _, _, h => by cases h
  | n + 1, i, h0, hlt, h => by
    unfold scanSlots at h
    split at h
    · exact scanSlots_mem hslots (nextSlot_mem hslots).1 (nextSlot_mem hslots).2 h
    · cases h; exact ⟨h0, hlt⟩

/-- A scan that fails has found `n` slots full from `i` on: up to the end of the table, and from 1 again beyond it. -/
theorem scanSlots_full {f : Nat → Bool} {slots : Nat} (hslots : 1 < slots) : ∀ {n i : Nat}, 0 < i → i < slots →
    scanSlots f slots n i = none →
    ∀ u, (i ≤ u ∧ u < slots ∧ u < i + n) ∨ (0 < u ∧ u < slots ∧ u + (slots - 1) < i + n) → f u = true
  | 0, i, _, _, _, u, hu => by omega
  | n + 1, i, h0, hlt, h, u, hu => by
    unfold scanSlots at h
    split at h
    · rename_i hi
      by_cases hui : u = i
      · exact hui ▸ hi
      · refine scanSlots_full hslots (nextSlot_mem hslots).1 (nextSlot_mem hslots).2 h u ?_
        unfold nextSlot
        split <;> omega
    · cases h

/-- Where the scan for a free slot starts. -/
theorem Kernel.freshUid_eq (k : Kernel) {slots : Nat} (h : 1 < slots) :
    ∃ i, 0 < i ∧ i < slots ∧ k.freshUid slots = scanSlots (fun i => (k.lookup i).isSome) slots (slots - 1) i := by
  refine ⟨_, ?_, ?_, rfl⟩ <;> split <;> omega

/-- The UID of a new object is a free slot of the table. -/
theorem Kernel.freshUid_spec {k : Kernel} {slots u : Nat} (h : k.freshUid slots = some u) :
    0 < u ∧ u < slots ∧ k.lookup u = none := by
  by_cases hslots : 1 < slots
  · obtain ⟨i, h0, hlt, he⟩ := k.freshUid_eq hslots
    rw [he] at h
    obtain ⟨hu, hu'⟩ := scanSlots_mem hslots h0 hlt h
    exact ⟨hu, hu', by simpa using scanSlots_free _ _ _ _ _ h⟩
  · rw [Kernel.freshUid, Nat.sub_eq_zero_of_le (by omega)] at h
    cases h

/-- With no UID to give, every slot is full. -/
theorem Kernel.lookup_isSome_of_freshUid_none {k : Kernel} {slots u : Nat} (h : k.freshUid slots = none) (hu : 0 < u)
    (hlt : u < slots) : (k.lookup u).isSome = true := by
  obtain ⟨i, h0, hi, he⟩ := k.freshUid_eq (slots := slots) (by omega)
  exact scanSlots_full (by omega) h0 hi (he ▸ h) u (by omega)

/-- Settles O46: the scan's answer, and the write of the slot that it answers. -/
theorem uidAllocation : Obligations.UidAllocation := by
  intro k slots o
  refine ⟨fun u k' h => ?_, fun h u hu hlt => ?_⟩ <;> unfold Kernel.create at h <;> split at h <;> cases h
  · obtain ⟨h0, hlt, hfree⟩ := Kernel.freshUid_spec ‹_›
    exact ⟨h0, hlt, hfree, Kernel.lookup_put_same k u o, fun v hv => Kernel.lookup_put_other k u v o hv⟩
  · exact Kernel.lookup_isSome_of_freshUid_none ‹_› hu hlt

end Sys2Proof.Machine
end

section
/-! SUPPORT. The wake scan of a semaphore (R331): what it does with one record, and what follows for the queue. -/

namespace Sys2Proof.Machine

/-- The scan grants a record that needs no more than is left; one that needs more ends the scan or is passed over (R331). -/
theorem semaphoreScan_cons_cases (policy : SemaWakePolicy) (count : Nat) (r : WaitRecord) (rest : List WaitRecord) :
    (r.need ≤ count ∧ semaphoreScan policy count (r :: rest) =
      ((semaphoreScan policy (count - r.need) rest).1, (semaphoreScan policy (count - r.need) rest).2.1,
        r :: (semaphoreScan policy (count - r.need) rest).2.2)) ∨
    (count < r.need ∧ policy = .headBlocks ∧ semaphoreScan policy count (r :: rest) = (count, r :: rest, [])) ∨
    (count < r.need ∧ policy = .skip ∧ semaphoreScan policy count (r :: rest) =
      ((semaphoreScan policy count rest).1, r :: (semaphoreScan policy count rest).2.1,
        (semaphoreScan policy count rest).2.2)) := by
  by_cases h : r.need ≤ count
  · exact .inl ⟨h, by simp [semaphoreScan, h]⟩
  · cases policy
    · exact .inr (.inl ⟨by omega, rfl, by simp [semaphoreScan, h]⟩)
    · exact .inr (.inr ⟨by omega, rfl, by simp [semaphoreScan, h]⟩)

/-- The count that the scan takes away is what the granted records needed. -/
theorem semaphoreScan_count (policy : SemaWakePolicy) (q : List WaitRecord) : ∀ count,
    count = (semaphoreScan policy count q).1 + ((semaphoreScan policy count q).2.2.map WaitRecord.need).sum := by
  induction q with
  | nil => exact fun _ => rfl
  | cons r rest ih =>
    intro count
    obtain ⟨hle, he⟩ | ⟨-, -, he⟩ | ⟨-, -, he⟩ := semaphoreScan_cons_cases policy count r rest <;> rw [he]
    · have := ih (count - r.need)
      simp only [List.map_cons, List.sum_cons]
      omega
    · rfl
    · exact ih count

/-- The scan adds nothing to the count. -/
theorem semaphoreScan_le (policy : SemaWakePolicy) (count : Nat) (q : List WaitRecord) :
    (semaphoreScan policy count q).1 ≤ count := by
  have := semaphoreScan_count policy q count
  omega

/-- The records that stay and the granted ones are together those of the queue. -/
theorem semaphoreScan_perm (policy : SemaWakePolicy) (q : List WaitRecord) : ∀ count,
    ((semaphoreScan policy count q).2.1 ++ (semaphoreScan policy count q).2.2).Perm q := by
  induction q with
  | nil => exact fun _ => .refl _
  | cons r rest ih =>
    intro count
    obtain ⟨-, he⟩ | ⟨-, -, he⟩ | ⟨-, -, he⟩ := semaphoreScan_cons_cases policy count r rest <;> rw [he]
    · exact List.perm_middle.trans ((ih _).cons r)
    · rw [List.append_nil]
    · exact (ih count).cons r

theorem semaphoreScan_stay_sublist (policy : SemaWakePolicy) (q : List WaitRecord) : ∀ count,
    (semaphoreScan policy count q).2.1.Sublist q := by
  induction q with
  | nil => exact fun _ => .refl _
  | cons r rest ih =>
    intro count
    obtain ⟨-, he⟩ | ⟨-, -, he⟩ | ⟨-, -, he⟩ := semaphoreScan_cons_cases policy count r rest <;> rw [he]
    · exact (ih _).cons r
    · exact (ih count).cons_cons r

theorem semaphoreScan_granted_sublist (policy : SemaWakePolicy) (q : List WaitRecord) : ∀ count,
    (semaphoreScan policy count q).2.2.Sublist q := by
  induction q with
  | nil => exact fun _ => .refl _
  | cons r rest ih =>
    intro count
    obtain ⟨-, he⟩ | ⟨-, -, he⟩ | ⟨-, -, he⟩ := semaphoreScan_cons_cases policy count r rest <;> rw [he]
    · exact (ih _).cons_cons r
    · exact List.nil_sublist _
    · exact (ih count).cons r

/-- Under `head_blocks` the granted records are the head of the queue, and the first that stays needs more than is left. -/
theorem semaphoreScan_headBlocks (q : List WaitRecord) : ∀ count,
    q = (semaphoreScan .headBlocks count q).2.2 ++ (semaphoreScan .headBlocks count q).2.1 ∧
      ∀ x rest, (semaphoreScan .headBlocks count q).2.1 = x :: rest → (semaphoreScan .headBlocks count q).1 < x.need := by
  induction q with
  | nil => exact fun _ => ⟨rfl, nofun⟩
  | cons r rest ih =>
    intro count
    obtain ⟨-, he⟩ | ⟨hlt, -, he⟩ | ⟨-, hp, -⟩ := semaphoreScan_cons_cases .headBlocks count r rest
    · rw [he]
      exact ⟨congrArg (r :: ·) (ih (count - r.need)).1, (ih (count - r.need)).2⟩
    · rw [he]
      exact ⟨rfl, fun x _ hx => by cases hx; exact hlt⟩
    · cases hp

/-- Under `skip` no record that stays could be granted by what is left. -/
theorem semaphoreScan_skip_stays (q : List WaitRecord) : ∀ count,
    ∀ x ∈ (semaphoreScan .skip count q).2.1, (semaphoreScan .skip count q).1 < x.need := by
  induction q with
  | nil => exact fun _ _ => nofun
  | cons r rest ih =>
    intro count
    obtain ⟨-, he⟩ | ⟨-, hp, -⟩ | ⟨hlt, -, he⟩ := semaphoreScan_cons_cases .skip count r rest
    · rw [he]; exact ih _
    · cases hp
    · rw [he]
      exact List.forall_mem_cons.mpr ⟨Nat.lt_of_le_of_lt (semaphoreScan_le _ _ _) hlt, ih count⟩

/-- Under `skip` the scan of a queue goes on behind any part of it with the count that the part has left. -/
theorem semaphoreScan_skip_append (after : List WaitRecord) : ∀ (before : List WaitRecord) (count : Nat),
    semaphoreScan .skip count (before ++ after) =
      ((semaphoreScan .skip (semaphoreScan .skip count before).1 after).1,
        (semaphoreScan .skip count before).2.1 ++ (semaphoreScan .skip (semaphoreScan .skip count before).1 after).2.1,
        (semaphoreScan .skip count before).2.2 ++ (semaphoreScan .skip (semaphoreScan .skip count before).1 after).2.2)
  | [], _ => rfl
  | r :: before, count => by
    obtain ⟨hle, he⟩ | ⟨-, hp, -⟩ | ⟨hlt, -, he⟩ := semaphoreScan_cons_cases .skip count r before
    · rw [he, List.cons_append, semaphoreScan, if_pos hle, semaphoreScan_skip_append after before]
      rfl
    · cases hp
    · rw [he, List.cons_append, semaphoreScan, if_neg (by omega)]
      simp only [semaphoreScan_skip_append after before, List.cons_append]

/-- Settles O47: what the scan conserves, and its two policies. -/
theorem semaphoreScan_spec : Obligations.SemaphoreScan := by
  intro policy count q
  refine ⟨semaphoreScan_count policy q count, fun x => ?_, semaphoreScan_stay_sublist policy q count,
    semaphoreScan_granted_sublist policy q count, ?_, ?_⟩
  · rw [← List.count_append, (semaphoreScan_perm policy q count).count_eq]
  · rintro rfl
    exact semaphoreScan_headBlocks q count
  · rintro rfl
    refine ⟨semaphoreScan_skip_stays q count, ?_⟩
    rintro before x after rfl
    obtain ⟨hle, he⟩ | ⟨-, hp, -⟩ | ⟨hlt, -, he⟩ :=
      semaphoreScan_cons_cases .skip (semaphoreScan .skip count before).1 x after
    · rw [semaphoreScan_skip_append, he]
      exact ⟨fun _ => ⟨_, _, rfl, rfl, rfl⟩, fun hlt => absurd hle (by omega)⟩
    · cases hp
    · rw [semaphoreScan_skip_append, he]
      exact ⟨fun hle => absurd hle (by omega), fun _ => ⟨_, _, rfl, rfl, rfl⟩⟩

end Sys2Proof.Machine
end

section
/-! SUPPORT. The allocator (R337 to R340): its invariant as a tiling with free blocks apart, what an allocation of either kind is,
and that merging free neighbours makes the invariant of any tiling. -/

namespace Sys2Proof.Machine

/-! ## The invariant (R337) -/

/-- Consecutive blocks from `at_` to `stop`, none empty, with a name on every allocated one: R337 but for its rule about free
neighbours. -/
def BlocksTile : List Block → Nat → Nat → Prop
  | [], at_, stop => at_ = stop
  | b :: rest, at_, stop =>
    b.start = at_ ∧ 0 < b.size ∧ (b.free = false → b.name ≠ "") ∧ BlocksTile rest (at_ + b.size) stop

/-- Two neighbours that are not both free. -/
def Block.Apart (b c : Block) : Prop := b.free = true → c.free = false

/-- The invariant of R337 in those terms. -/
theorem blocksCover_iff : ∀ (l : List Block) (at_ stop : Nat),
    blocksCover l at_ stop = true ↔ BlocksTile l at_ stop ∧ l.IsChain Block.Apart
  | [], at_, stop => by simp [blocksCover, BlocksTile]
  | b :: rest, at_, stop => by
    have hname : (b.free || b.name != "") = true ↔ (b.free = false → b.name ≠ "") := by cases b.free <;> simp
    have hapart : (!(b.free && rest.head?.any fun c => c.free)) = true ↔ ∀ c ∈ rest.head?, b.Apart c := by
      cases rest with
      | nil => simp
      | cons c rest => cases hb : b.free <;> simp [Block.Apart, hb]
    simp only [blocksCover, Bool.and_eq_true, beq_iff_eq, decide_eq_true_eq, hname, hapart, blocksCover_iff rest, BlocksTile,
      List.isChain_cons]
    tauto

theorem Allocator.wf_iff (a : Allocator) :
    a.wf = true ↔ BlocksTile a.blocks a.start (a.start + a.size) ∧ a.blocks.IsChain Block.Apart :=
  blocksCover_iff a.blocks _ _

namespace BlocksTile

theorem append_iff {m : List Block} {stop : Nat} : ∀ {l : List Block} {at_ : Nat},
    BlocksTile (l ++ m) at_ stop ↔ ∃ mid, BlocksTile l at_ mid ∧ BlocksTile m mid stop
  | [], at_ => by simp [BlocksTile]
  | b :: l, at_ => by simp only [List.cons_append, BlocksTile, append_iff (l := l)]; grind

/-- The blocks of a tiling lie below its end. -/
theorem start_lt {b : Block} : ∀ {l : List Block} {at_ stop : Nat}, BlocksTile l at_ stop → b ∈ l →
    at_ ≤ b.start ∧ b.start < stop
  | c :: l, at_, stop, ⟨hstart, hsize, _, hl⟩, hb => by
    have hle : at_ + c.size ≤ stop := le_stop hl
    obtain rfl | hb := List.mem_cons.mp hb
    · omega
    · have := start_lt hl hb
      omega
where
  le_stop : ∀ {l : List Block} {at_ stop : Nat}, BlocksTile l at_ stop → at_ ≤ stop
    | [], _, _, h => Nat.le_of_eq h
    | _ :: _, _, _, ⟨_, _, _, hl⟩ => Nat.le_trans (Nat.le_add_right _ _) (le_stop hl)

/-- The free piece between two addresses, if any, tiles them. -/
theorem blockPiece {lo hi : Nat} (h : lo ≤ hi) : BlocksTile (blockPiece lo hi) lo hi := by
  unfold Sys2Proof.Machine.blockPiece
  split
  · exact ⟨rfl, by simp only; omega, nofun, by simp only [BlocksTile]; omega⟩
  · simp only [BlocksTile]; omega

/-- The pieces of a split block tile it. -/
theorem split (b : Block) {s size : Nat} (name : String) (h0 : 0 < size) (hlow : b.start ≤ s)
    (hhigh : s + size ≤ b.start + b.size) : BlocksTile (b.split s size name) b.start (b.start + b.size) := by
  have hname : blockName name ≠ "" := by
    unfold blockName
    split <;> simp_all
  exact append_iff.mpr ⟨s + size, append_iff.mpr ⟨s, blockPiece hlow, rfl, h0, fun _ => hname, rfl⟩, blockPiece hhigh⟩

end BlocksTile

/-! ## Allocation (R338, R339) -/

/-- Replacing the block that starts at an address, in a list where none before it does. -/
theorem replaceBlock_append {pieces r : List Block} {b : Block} : ∀ {l : List Block}, (∀ c ∈ l, c.start ≠ b.start) →
    replaceBlock b.start pieces (l ++ b :: r) = l ++ (pieces ++ r)
  | [], _ => by simp [replaceBlock]
  | c :: l, h => by
    obtain ⟨hc, hl⟩ := List.forall_mem_cons.mp h
    rw [List.cons_append, replaceBlock, if_neg hc, replaceBlock_append hl, List.cons_append]

/-- A free piece stands apart from an allocated block, or is not there. -/
theorem isChain_append_blockPiece {l : List Block} {lo hi : Nat} (hl : l.IsChain Block.Apart)
    (hlast : ∀ c ∈ l.getLast?, c.free = false) : (l ++ blockPiece lo hi).IsChain Block.Apart := by
  unfold blockPiece
  split
  · exact hl.append (.singleton _) fun c hc d _ hfree => by rw [hlast c hc] at hfree; cases hfree
  · rwa [List.append_nil]

theorem isChain_blockPiece_append {r : List Block} {lo hi : Nat} (hr : r.IsChain Block.Apart)
    (hhead : ∀ c ∈ r.head?, c.free = false) : (blockPiece lo hi ++ r).IsChain Block.Apart := by
  unfold blockPiece
  split
  · exact List.isChain_cons.mpr ⟨fun c hc _ => hhead c hc, hr⟩
  · exact hr

/-- The pieces of a free block stand apart from each other and from its neighbours, which are allocated. -/
theorem isChain_split {l r : List Block} {b : Block} (s size : Nat) (name : String) (hb : b.free = true)
    (h : (l ++ b :: r).IsChain Block.Apart) : (l ++ (b.split s size name ++ r)).IsChain Block.Apart := by
  obtain ⟨hl, hbr, hlast⟩ := List.isChain_append.mp h
  obtain ⟨hhead, hr⟩ := List.isChain_cons.mp hbr
  have hlast' : ∀ c ∈ l.getLast?, c.free = false := fun c hc => by
    by_contra hfree
    have := hlast c hc b rfl (by simpa using hfree)
    simp [hb] at this
  have he : l ++ (b.split s size name ++ r) = (l ++ blockPiece b.start s) ++
      ({ start := s, size := size, free := false, name := blockName name } ::
        (blockPiece (s + size) (b.start + b.size) ++ r)) := by
    simp [Block.split]
  rw [he]
  refine (isChain_append_blockPiece hl hlast').append (List.isChain_cons.mpr ⟨fun _ _ => nofun, ?_⟩) fun _ _ d hd _ => ?_
  · exact isChain_blockPiece_append hr fun c hc => hhead c hc hb
  · cases hd; rfl

/-- The second allocator is the first with an allocation at `addr` in one of its free blocks. -/
inductive Allocator.Places (a : Allocator) (addr : Nat) : Allocator → Prop where
  | mk {b : Block} {size : Nat} {name : String} (hmem : b ∈ a.blocks) (hfree : b.free = true) (hsize : 0 < size)
      (hlow : b.start ≤ addr) (hhigh : addr + size ≤ b.start + b.size) :
      Places a addr { a with blocks := replaceBlock b.start (b.split addr size name) a.blocks }

theorem le_roundUp (n a : Nat) : n ≤ roundUp n a := by
  unfold roundUp
  split
  · exact Nat.le_refl n
  · rename_i ha
    have hdiv := Nat.div_add_mod (n + (a - 1)) a
    have hmod := Nat.mod_lt (n + (a - 1)) (Nat.pos_of_ne_zero ha)
    rw [Nat.mul_comm] at hdiv
    omega

theorem roundDown_le (n a : Nat) : roundDown n a ≤ n := by
  unfold roundDown
  split
  · exact Nat.le_refl n
  · exact Nat.div_mul_le_self n a

/-- An allocation fits into its block from either end (R338). -/
theorem Block.fitLow_spec {b : Block} {size align s : Nat} (h : b.fitLow size align = some s) :
    b.free = true ∧ b.start ≤ s ∧ s + size ≤ b.start + b.size := by
  simp only [Block.fitLow, Bool.and_eq_true, decide_eq_true_eq, Option.ite_none_right_eq_some, Option.some.injEq] at h
  obtain ⟨⟨hfree, hle⟩, rfl⟩ := h
  exact ⟨hfree, le_roundUp _ _, hle⟩

theorem Block.fitHigh_spec {b : Block} {size align s : Nat} (h : b.fitHigh size align = some s) :
    b.free = true ∧ b.start ≤ s ∧ s + size ≤ b.start + b.size := by
  simp only [Block.fitHigh, Bool.and_eq_true, decide_eq_true_eq, Option.ite_none_right_eq_some, Option.some.injEq] at h
  obtain ⟨⟨⟨hfree, hsize⟩, hlow⟩, rfl⟩ := h
  have := roundDown_le (b.start + b.size - size) align
  exact ⟨hfree, hlow, by omega⟩

theorem smallerFit_mem {c : Block × Nat} : ∀ {cs : List (Block × Nat)}, smallerFit cs = some c → c ∈ cs
  | d :: cs, h => by
    unfold smallerFit at h
    split at h
    · cases h; exact List.mem_cons_self
    · rename_i e he
      split at h <;> cases h
      · exact List.mem_cons_of_mem _ (smallerFit_mem he)
      · exact List.mem_cons_self

/-- `ALLOC_FIT` chooses one of the candidates (R338). -/
theorem chooseFit_mem {fit : AllocFit} {cs : List (Block × Nat)} {c : Block × Nat} (h : chooseFit fit cs = some c) :
    c ∈ cs := by
  cases fit
  · exact List.mem_of_head? h
  · exact smallerFit_mem h

/-- Every candidate is a free block of the list with a place in it (R338). -/
theorem Allocator.mem_candidates {a : Allocator} {size align s : Nat} {high : Bool} {b : Block}
    (h : (b, s) ∈ a.candidates size align high) :
    b ∈ a.blocks ∧ b.free = true ∧ b.start ≤ s ∧ s + size ≤ b.start + b.size := by
  cases high <;>
    simp only [Allocator.candidates, if_true, Bool.false_eq_true, if_false, List.mem_filterMap, List.mem_reverse,
      Option.map_eq_some_iff, Prod.mk.injEq] at h
  · obtain ⟨b, hmem, s, hs, rfl, rfl⟩ := h
    exact ⟨hmem, Block.fitLow_spec hs⟩
  · obtain ⟨b, hmem, s, hs, rfl, rfl⟩ := h
    exact ⟨hmem, Block.fitHigh_spec hs⟩

theorem Allocator.alloc_places {p : Params} {a b : Allocator} {size align addr : Nat} {name : String} {high pad : Bool}
    (h : a.alloc p size name align high pad = some (addr, b)) : a.Places addr b := by
  unfold Allocator.alloc at h
  dsimp only at h
  generalize (if pad = true then _ else size) = sz at h
  split at h
  · cases h
  · rename_i hsize
    split at h
    · cases h
    · rename_i c s hc
      cases h
      obtain ⟨hmem, hfree, hlow, hhigh⟩ := Allocator.mem_candidates (chooseFit_mem hc)
      exact .mk hmem hfree (Nat.pos_of_ne_zero hsize) hlow hhigh

theorem Allocator.allocAt_places {a b : Allocator} {size addr : Nat} {name : String} (h : a.allocAt addr size name = some b) :
    a.Places addr b := by
  unfold Allocator.allocAt at h
  split at h
  · cases h
  · rename_i hsize
    split at h
    · cases h
    · rename_i c hc
      cases h
      have hspec := List.find?_some hc
      simp only [Bool.and_eq_true, decide_eq_true_eq] at hspec
      obtain ⟨⟨hfree, hlow⟩, hhigh⟩ := hspec
      exact .mk (List.mem_of_find?_eq_some hc) hfree (Nat.pos_of_ne_zero hsize) hlow hhigh

/-! ## Free (R340) -/

/-- A block of the list that becomes free: the allocated one that starts at `addr`. -/
def Block.freed (addr : Nat) (b : Block) : Block :=
  if b.start = addr ∧ b.free = false then { b with free := true, name := "" } else b

theorem Allocator.free_eq_some_iff {a c : Allocator} {addr : Nat} : a.free addr = some c ↔
    (∃ b ∈ a.blocks, b.start = addr ∧ b.free = false) ∧
      c = { a with blocks := coalesce (a.blocks.map (Block.freed addr)) } := by
  have hany : (a.blocks.any fun b => b.start == addr && !b.free) = true ↔
      ∃ b ∈ a.blocks, b.start = addr ∧ b.free = false := by
    simp
  unfold Allocator.free
  rw [Option.ite_none_right_eq_some, hany, Option.some.injEq]
  exact and_congr_right fun _ => eq_comm

theorem Allocator.free_isSome_iff {a : Allocator} {addr : Nat} :
    (a.free addr).isSome ↔ ∃ b ∈ a.blocks, b.start = addr ∧ b.free = false := by
  simp [Option.isSome_iff_exists, Allocator.free_eq_some_iff]

/-- Freeing a block of a tiling leaves a tiling. -/
theorem BlocksTile.map_freed (addr : Nat) : ∀ {l : List Block} {at_ stop : Nat}, BlocksTile l at_ stop →
    BlocksTile (l.map (Block.freed addr)) at_ stop
  | [], _, _, h => h
  | b :: l, at_, stop, ⟨hstart, hsize, hname, hl⟩ => by
    rw [List.map_cons]
    unfold Block.freed
    split
    · exact ⟨hstart, hsize, nofun, map_freed addr hl⟩
    · exact ⟨hstart, hsize, hname, map_freed addr hl⟩

/-- What merging does with one block: it joins the merged rest as it is, or is merged with a free head of it. -/
theorem coalesce_cons_cases (b : Block) (l : List Block) :
    (coalesce (b :: l) = b :: coalesce l ∧ ∀ c ∈ (coalesce l).head?, b.Apart c) ∨
    ∃ c m, coalesce l = c :: m ∧ b.free = true ∧ c.free = true ∧
      coalesce (b :: l) = { b with size := b.size + c.size, name := "" } :: m := by
  cases h : coalesce l with
  | nil => exact .inl ⟨by simp [coalesce, h], fun c hc => by cases hc⟩
  | cons c m =>
    by_cases hfree : b.free = true ∧ c.free = true
    · exact .inr ⟨c, m, rfl, hfree.1, hfree.2, by simp [coalesce, h, hfree]⟩
    · refine .inl ⟨by simp [coalesce, h, hfree], fun d hd hb => ?_⟩
      cases hd
      simpa [hb] using hfree

/-- Merging leaves the range as it was. -/
theorem BlocksTile.coalesce {stop : Nat} : ∀ {l : List Block} {at_ : Nat}, BlocksTile l at_ stop →
    BlocksTile (coalesce l) at_ stop
  | [], _, h => h
  | b :: l, at_, ⟨hstart, hsize, hname, hl⟩ => by
    have ih := BlocksTile.coalesce hl
    obtain ⟨he, -⟩ | ⟨c, m, hm, hb, -, he⟩ := coalesce_cons_cases b l <;> rw [he]
    · exact ⟨hstart, hsize, hname, ih⟩
    · rw [hm] at ih
      obtain ⟨-, -, -, hrest⟩ := ih
      exact ⟨hstart, Nat.add_pos_left hsize _, by simp [hb], by rwa [← Nat.add_assoc]⟩

/-- Merging leaves no two free neighbours. -/
theorem isChain_coalesce : ∀ l : List Block, (coalesce l).IsChain Block.Apart
  | [] => .nil
  | b :: l => by
    have ih := isChain_coalesce l
    obtain ⟨he, happart⟩ | ⟨c, m, hm, -, hc, he⟩ := coalesce_cons_cases b l <;> rw [he]
    · exact List.isChain_cons.mpr ⟨happart, ih⟩
    · rw [hm] at ih
      obtain ⟨hhead, hm'⟩ := List.isChain_cons.mp ih
      exact List.isChain_cons.mpr ⟨fun d hd _ => hhead d hd hc, hm'⟩

theorem Allocator.wf_free {a c : Allocator} {addr : Nat} (ha : a.wf = true) (h : a.free addr = some c) : c.wf = true := by
  obtain ⟨-, rfl⟩ := Allocator.free_eq_some_iff.mp h
  obtain ⟨htile, -⟩ := a.wf_iff.mp ha
  exact (Allocator.wf_iff _).mpr ⟨(htile.map_freed addr).coalesce, isChain_coalesce _⟩

/-! ## An allocation and its free -/

/-- A split block has the allocation among its pieces. -/
theorem Block.exists_allocated_mem_split (b : Block) (s size : Nat) (name : String) :
    ∃ c ∈ b.split s size name, c.start = s ∧ c.free = false :=
  ⟨{ start := s, size := size, free := false, name := blockName name }, by simp [Block.split], rfl, rfl⟩

theorem Allocator.Places.wf {a b : Allocator} {addr : Nat} (h : a.Places addr b) (ha : a.wf = true) :
    b.wf = true ∧ (b.free addr).isSome := by
  obtain @⟨c, size, name, hmem, hfree, hsize, hlow, hhigh⟩ := h
  obtain ⟨l, r, hblocks⟩ := List.append_of_mem hmem
  obtain ⟨htile, hchain⟩ := a.wf_iff.mp ha
  rw [hblocks] at htile hchain
  obtain ⟨mid, hl, hstart, -, -, hr⟩ := BlocksTile.append_iff.mp htile
  have hbefore : ∀ d ∈ l, d.start ≠ c.start := fun d hd => by
    have := (hl.start_lt hd).2
    omega
  rw [Allocator.wf_iff, Allocator.free_isSome_iff]
  simp only [hblocks, replaceBlock_append hbefore]
  refine ⟨⟨?_, isChain_split addr size name hfree hchain⟩, ?_⟩
  · subst hstart
    exact BlocksTile.append_iff.mpr ⟨_, hl, BlocksTile.append_iff.mpr ⟨_, .split c name hsize hlow hhigh, hr⟩⟩
  · obtain ⟨d, hd, hspec⟩ := c.exists_allocated_mem_split addr size name
    exact ⟨d, by simp [hd], hspec⟩

/-- A free piece has no allocated block to free. -/
theorem map_freed_blockPiece (addr lo hi : Nat) : (blockPiece lo hi).map (Block.freed addr) = blockPiece lo hi := by
  unfold blockPiece
  split <;> simp [Block.freed]

/-- The pieces of a split free block are merged into it again when the allocation between them is freed. -/
theorem coalesce_freed_split {b : Block} {s size : Nat} (name : String) (hfree : b.free = true) (hlow : b.start ≤ s)
    (hhigh : s + size ≤ b.start + b.size) :
    coalesce ((b.split s size name).map (Block.freed s)) = [{ b with name := "" }] := by
  simp only [Block.split, List.map_append, map_freed_blockPiece]
  obtain ⟨start, total, free, bname⟩ := b
  obtain rfl : free = true := hfree
  simp only at hlow hhigh
  by_cases h1 : start < s <;> by_cases h2 : s + size < start + total <;>
    simp [blockPiece, Block.freed, coalesce, h1, h2] <;> omega

/-- An allocation in an allocator of one free block is undone by its free. -/
theorem Allocator.Places.free_singleton {a b : Allocator} {c : Block} {addr : Nat} (h : a.Places addr b)
    (ha : a.blocks = [c]) (hname : c.name = "") : b.free addr = some a := by
  obtain @⟨d, size, name, hmem, hfree, hsize, hlow, hhigh⟩ := h
  obtain rfl : d = c := by simpa [ha] using hmem
  have hblocks : replaceBlock d.start (d.split addr size name) a.blocks = d.split addr size name := by
    simp [ha, replaceBlock]
  simp only [hblocks]
  refine Allocator.free_eq_some_iff.mpr ⟨d.exists_allocated_mem_split addr size name, ?_⟩
  simp only [coalesce_freed_split name hfree hlow hhigh, ← hname, ← ha]

/-- Settles O48: both kinds of allocation are places in a free block, and every free merges a tiling. -/
theorem allocatorInvariants : Obligations.AllocatorInvariants := by
  intro p a b size align addr name high pad
  refine ⟨fun ha h => (Allocator.alloc_places h).wf ha, fun ha h => (Allocator.allocAt_places h).wf ha,
    fun x c ha h => Allocator.wf_free ha h, ?_⟩
  rintro start total - rfl h
  exact (Allocator.alloc_places h).free_singleton rfl rfl

end Sys2Proof.Machine
end

section
/-! SUPPORT. What the kernel's operations on objects, threads and levels do, said once: a write of a slot, a change of a thread, a
thread that joins or leaves a level, and the end of a wait; and that most of the kernel changes threads only (`OnlyThreads`). -/

namespace Sys2Proof.Machine

/-! ## Slots (R305 to R307) -/

theorem insertObject_insertObject (u : Nat) (o p : KernelObject) : ∀ l : List (Nat × KernelObject),
    insertObject (insertObject l u o) u p = insertObject l u p
  | [] => by simp [insertObject]
  | (k, q) :: l => by
    by_cases hlt : u < k
    · simp [insertObject, hlt]
    · by_cases heq : u = k
      · simp [insertObject, heq]
      · simp [insertObject, hlt, heq, insertObject_insertObject u o p l]

/-- The later of two writes of a slot counts. -/
theorem Kernel.put_put (k : Kernel) (u : Nat) (o p : KernelObject) : (k.put u o).put u p = k.put u p := by
  simp [Kernel.put, insertObject_insertObject]

theorem Kernel.thread?_congr {k k' : Kernel} {v : Nat} (h : k'.lookup v = k.lookup v) : k'.thread? v = k.thread? v := by
  simp only [Kernel.thread?, h]

/-- A slot has a view exactly when it holds a thread. -/
theorem Kernel.view_eq_none_iff {k : Kernel} {v : Nat} : k.view v = none ↔ k.thread? v = none := by
  rw [Kernel.view_thread, Option.map_eq_none_iff]

/-- A thread has no wait queue. -/
theorem Kernel.queue_of_thread {k : Kernel} {v : Nat} {o : KernelObject} (ht : (k.thread? v).isSome)
    (ho : k.lookup v = some o) : o.payload.queue = [] := by
  obtain ⟨t, ht⟩ := Option.isSome_iff_exists.mp ht
  obtain ⟨n, hn⟩ := Kernel.lookup_of_thread k v t ht
  cases hn.symm.trans ho
  rfl

/-- A semaphore of the table is an object of it. -/
theorem Kernel.lookup_of_semaphore {k : Kernel} {u : Nat} {x : Semaphore} (h : k.semaphore? u = some x) :
    ∃ n, k.lookup u = some { name := n, payload := .semaphore x } := by
  unfold Kernel.semaphore? at h
  split at h
  · rename_i heq; cases h; exact ⟨_, heq⟩
  · cases h

/-- A mutex of the table is an object of it. -/
theorem Kernel.lookup_of_mutex {k : Kernel} {u : Nat} {x : Mutex} (h : k.mutex? u = some x) :
    ∃ n, k.lookup u = some { name := n, payload := .mutex x } := by
  unfold Kernel.mutex? at h
  split at h
  · rename_i heq; cases h; exact ⟨_, heq⟩
  · cases h

/-- An event flag of the table is an object of it. -/
theorem Kernel.lookup_of_eventFlag {k : Kernel} {u : Nat} {x : EventFlag} (h : k.eventFlag? u = some x) :
    ∃ n, k.lookup u = some { name := n, payload := .eventFlag x } := by
  unfold Kernel.eventFlag? at h
  split at h
  · rename_i heq; cases h; exact ⟨_, heq⟩
  · cases h

/-! ## A payload that is written -/

theorem State.setPayload_eq (s : State) (u : Nat) (p : Payload) :
    s.setPayload u p = { s with kernel := { s.kernel with objects := (s.setPayload u p).kernel.objects } } := by
  unfold State.setPayload
  split <;> rfl

theorem State.lookup_setPayload (s : State) (u v : Nat) (p : Payload) :
    (s.setPayload u p).kernel.lookup v =
      if v = u then (s.kernel.lookup u).map fun o => { o with payload := p } else s.kernel.lookup v := by
  cases h : s.kernel.lookup u with
  | none =>
    have hsame : s.setPayload u p = s := by simp only [State.setPayload, h]
    rw [hsame]
    split
    · rename_i hv; subst hv; exact h
    · rfl
  | some o =>
    have hput : s.setPayload u p = s.withKernel fun k => k.put u { o with payload := p } := by simp only [State.setPayload, h]
    rw [hput]
    split
    · rename_i hv; subst hv; exact Kernel.lookup_put_same _ _ _
    · exact Kernel.lookup_put_other _ _ _ _ ‹_›

theorem State.lookup_setPayload_same {s : State} {u : Nat} {o : KernelObject} (h : s.kernel.lookup u = some o) (p : Payload) :
    (s.setPayload u p).kernel.lookup u = some { o with payload := p } := by
  rw [State.lookup_setPayload, if_pos rfl, h]
  rfl

theorem State.mutex?_setPayload {s : State} {u : Nat} {x : Mutex} (h : s.kernel.mutex? u = some x) (y : Mutex) :
    (s.setPayload u (.mutex y)).kernel.mutex? u = some y := by
  obtain ⟨n, hn⟩ := Kernel.lookup_of_mutex h
  simp only [Kernel.mutex?, State.lookup_setPayload_same hn]

theorem State.eventFlag?_setPayload {s : State} {u : Nat} {x : EventFlag} (h : s.kernel.eventFlag? u = some x)
    (y : EventFlag) : (s.setPayload u (.eventFlag y)).kernel.eventFlag? u = some y := by
  obtain ⟨n, hn⟩ := Kernel.lookup_of_eventFlag h
  simp only [Kernel.eventFlag?, State.lookup_setPayload_same hn]

theorem State.callback?_setPayload {s : State} {u : Nat} {x : Callback} (h : s.kernel.callback? u = some x)
    (y : Callback) : (s.setPayload u (.callback y)).kernel.callback? u = some y := by
  obtain ⟨n, hn⟩ := Kernel.lookup_of_callback _ _ _ h
  simp only [Kernel.callback?, State.lookup_setPayload_same hn]

theorem State.lookup_setPayload_other {s : State} {u v : Nat} (p : Payload) (h : v ≠ u) :
    (s.setPayload u p).kernel.lookup v = s.kernel.lookup v := by rw [State.lookup_setPayload, if_neg h]

/-- A slot without a thread that takes a payload that is none leaves every thread as it is. -/
theorem State.thread?_setPayload {s : State} {u : Nat} {p : Payload} (hu : s.kernel.view u = none) (hp : p.view = none)
    (v : Nat) : (s.setPayload u p).kernel.thread? v = s.kernel.thread? v := by
  by_cases h : v = u
  · subst h
    have hv := (SameSched.setPayload s v p hu hp).view v
    rw [Kernel.view_eq_none_iff.mp hu, Kernel.view_eq_none_iff.mp (hv.trans hu)]
  · exact Kernel.thread?_congr (State.lookup_setPayload_other p h)

theorem State.setPayload_setPayload (s : State) (u : Nat) (p q : Payload) :
    (s.setPayload u p).setPayload u q = s.setPayload u q := by
  cases h : s.kernel.lookup u with
  | none => simp [State.setPayload, h]
  | some o => simp [State.setPayload, h, State.withKernel, Kernel.put_put]

/-! ## A thread that changes -/

/-- A change of a slot that holds no thread is none. -/
theorem State.updThread_of_none {s : State} {u : Nat} (h : s.kernel.thread? u = none) (f : Thread → Thread) :
    s.updThread u f = s := by
  simp [State.updThread, h]

theorem State.updThread_of_some {s : State} {u : Nat} {t : Thread} (h : s.kernel.thread? u = some t) (f : Thread → Thread) :
    s.updThread u f = s.setPayload u (.thread (f t)) := by
  simp [State.updThread, h]

theorem State.updThread_congr {s : State} {u : Nat} {t : Thread} (h : s.kernel.thread? u = some t)
    {f g : Thread → Thread} (hfg : f t = g t) : s.updThread u f = s.updThread u g := by
  rw [State.updThread_of_some h, State.updThread_of_some h, hfg]

/-- Two changes of a thread are one. -/
theorem State.updThread_updThread (s : State) (u : Nat) (f g : Thread → Thread) :
    (s.updThread u f).updThread u g = s.updThread u (g ∘ f) := by
  cases h : s.kernel.thread? u with
  | none => simp only [State.updThread_of_none h]
  | some t =>
    rw [State.updThread_of_some (State.updThread_thread s u t f h), State.updThread_of_some h, State.updThread_of_some h,
      State.setPayload_setPayload]
    rfl

theorem State.updThread_eq_objects (s : State) (u : Nat) (f : Thread → Thread) :
    s.updThread u f = { s with kernel := { s.kernel with objects := (s.updThread u f).kernel.objects } } := by
  cases h : s.kernel.thread? u with
  | none => simp only [State.updThread_of_none h]
  | some t => rw [State.updThread_of_some h]; exact State.setPayload_eq s u _

theorem State.thread?_updThread (s : State) (u v : Nat) (f : Thread → Thread) :
    (s.updThread u f).kernel.thread? v = if v = u then (s.kernel.thread? u).map f else s.kernel.thread? v := by
  split
  · rename_i hv
    subst hv
    cases h : s.kernel.thread? v with
    | none => rw [State.updThread_of_none h, h]; rfl
    | some t => exact State.updThread_thread s v t f h
  · exact Kernel.thread?_congr (State.updThread_lookup_other s u v f ‹_›)

theorem State.thread?_updThread_other {s : State} {u v : Nat} (f : Thread → Thread) (h : v ≠ u) :
    (s.updThread u f).kernel.thread? v = s.kernel.thread? v := by rw [State.thread?_updThread, if_neg h]

section
variable (s : State) (u : Nat) (f : Thread → Thread)

@[simp] theorem State.updThread_closing : (s.updThread u f).kernel.closing = s.kernel.closing := by
  rw [State.updThread_eq_objects]
@[simp] theorem State.updThread_reschedRequested : (s.updThread u f).kernel.reschedRequested = s.kernel.reschedRequested := by
  rw [State.updThread_eq_objects]
@[simp] theorem State.updThread_events : (s.updThread u f).kernel.events = s.kernel.events := by
  rw [State.updThread_eq_objects]
@[simp] theorem State.updThread_waitObjects : (s.updThread u f).kernel.waitObjects = s.kernel.waitObjects := by
  rw [State.updThread_eq_objects]
@[simp] theorem State.setPayload_events (p : Payload) : (s.setPayload u p).kernel.events = s.kernel.events := by
  rw [State.setPayload_eq]
@[simp] theorem State.setPayload_waitObjects (p : Payload) :
    (s.setPayload u p).kernel.waitObjects = s.kernel.waitObjects := by
  rw [State.setPayload_eq]
@[simp] theorem State.setPayload_nextWaitObject (p : Payload) :
    (s.setPayload u p).kernel.nextWaitObject = s.kernel.nextWaitObject := by
  rw [State.setPayload_eq]

end

/-! ## Levels of the ready queue (R311) -/

section
variable (k : Kernel) (u : Nat) (p q : Fin 128)

/-- A level after a write of one. -/
theorem ready_set (r : Vector (List Nat) 128) (l : List Nat) : (r.set q l)[p] = if p = q then l else r[p] := by
  split
  · rename_i h; subst h; exact Vector.getElem_set_self p.isLt
  · exact Vector.getElem_set_ne q.isLt p.isLt fun h => ‹¬p = q› (Fin.ext h.symm)

theorem Kernel.ready_enqueueTail : (k.enqueueTail u q).ready[p] = if p = q then k.ready[q] ++ [u] else k.ready[p] :=
  ready_set p q k.ready _

theorem Kernel.ready_dequeue :
    (k.dequeue u q).ready[p] = if p = q then k.ready[q].filter fun v => v != u else k.ready[p] :=
  ready_set p q k.ready _

/-- Who stands in a level stays there when another joins one. -/
theorem Kernel.mem_ready_enqueueTail {v : Nat} (h : v ∈ k.ready[p]) : v ∈ (k.enqueueTail u q).ready[p] := by
  rw [Kernel.ready_enqueueTail]
  split
  · rename_i hp; subst hp; exact List.mem_append_left _ h
  · exact h

theorem Kernel.mem_ready_enqueueTail_self : u ∈ (k.enqueueTail u q).ready[q] := by
  rw [Kernel.ready_enqueueTail, if_pos rfl]
  exact List.mem_append_right _ List.mem_cons_self

end

theorem State.thread?_makeReady (s : State) (u v : Nat) (atHead : Bool) : (s.makeReady u atHead).kernel.thread? v =
    if v = u then (s.kernel.thread? u).map fun t => { t with state := .ready } else s.kernel.thread? v := by
  rw [← State.thread?_updThread]
  unfold State.makeReady
  split
  · rename_i h
    rw [State.updThread_of_none h]
  · cases atHead <;> rfl

/-! ## Operations that change threads only -/

/-- From `s` to `t` threads may have changed, and no other object has. -/
structure OnlyThreads (s t : State) : Prop where
  object : ∀ v, s.kernel.thread? v = none → t.kernel.lookup v = s.kernel.lookup v
  thread : ∀ v, (s.kernel.thread? v).isSome → (t.kernel.thread? v).isSome

namespace OnlyThreads

variable {s t : State}

theorem refl (s : State) : OnlyThreads s s := ⟨fun _ _ => rfl, fun _ => id⟩

theorem trans {u : State} (h : OnlyThreads s t) (k : OnlyThreads t u) : OnlyThreads s u where
  object v hv :=
    have hl := h.object v hv
    (k.object v ((Kernel.thread?_congr hl).trans hv)).trans hl
  thread v hv := k.thread v (h.thread v hv)

theorem ite {u : State} (c : Prop) [Decidable c] (h : OnlyThreads s t) (k : OnlyThreads s u) :
    OnlyThreads s (if c then t else u) := by split <;> assumption

theorem foldl {α : Type} (f : State → α → State) (hf : ∀ s a, OnlyThreads s (f s a)) :
    ∀ (l : List α) (s : State), OnlyThreads s (l.foldl f s)
  | [], s => refl s
  | a :: l, s => (hf s a).trans (foldl f hf l (f s a))

/-- A lookup by another type finds what it found before. -/
theorem lookup_eq {α : Type} {find : Kernel → Nat → Option α}
    (hcongr : ∀ {k k' : Kernel} {v : Nat}, k'.lookup v = k.lookup v → find k' v = find k v)
    (hview : ∀ {k : Kernel} {v : Nat} {x : α}, find k v = some x → k.view v = none) (h : OnlyThreads s t) (v : Nat) :
    find t.kernel v = find s.kernel v := by
  have hnone : ∀ {k : Kernel}, (k.thread? v).isSome → find k v = none := fun {k} hk => by
    cases hx : find k v with
    | none => rfl
    | some x => rw [Kernel.view_eq_none_iff.mp (hview hx)] at hk; cases hk
  cases hs : s.kernel.thread? v with
  | none => exact hcongr (h.object v hs)
  | some th =>
    have hs' : (s.kernel.thread? v).isSome := by rw [hs]; rfl
    rw [hnone hs', hnone (h.thread v hs')]

theorem mutex?_eq (h : OnlyThreads s t) (v : Nat) : t.kernel.mutex? v = s.kernel.mutex? v :=
  h.lookup_eq (fun h => by simp only [Kernel.mutex?, h]) Kernel.view_of_mutex v

theorem eventFlag?_eq (h : OnlyThreads s t) (v : Nat) : t.kernel.eventFlag? v = s.kernel.eventFlag? v :=
  h.lookup_eq (fun h => by simp only [Kernel.eventFlag?, h]) Kernel.view_of_eventFlag v

theorem callback?_eq (h : OnlyThreads s t) (v : Nat) : t.kernel.callback? v = s.kernel.callback? v :=
  h.lookup_eq (fun h => by simp only [Kernel.callback?, h]) Kernel.view_of_callback v

/-- Whatever has a wait queue is as it was. -/
theorem queue (h : OnlyThreads s t) {v : Nat} {o : KernelObject} (ho : t.kernel.lookup v = some o) :
    o.payload.queue = [] ∨ s.kernel.lookup v = some o := by
  cases hs : s.kernel.thread? v with
  | none => exact .inr ((h.object v hs).symm.trans ho)
  | some th => exact .inl (Kernel.queue_of_thread (h.thread v (by rw [hs]; rfl)) ho)

/-- An operation that leaves the object table alone. -/
theorem of_objects (h : t.kernel.objects = s.kernel.objects) : OnlyThreads s t := by
  have hl : ∀ v, t.kernel.lookup v = s.kernel.lookup v := fun v => by simp only [Kernel.lookup, h]
  exact ⟨fun v _ => hl v, fun v hv => by rwa [Kernel.thread?_congr (hl v)]⟩

theorem updThread (s : State) (u : Nat) (f : Thread → Thread) : OnlyThreads s (s.updThread u f) where
  object v hv := by
    by_cases h : v = u
    · subst h; rw [State.updThread_of_none hv]
    · exact State.updThread_lookup_other s u v f h
  thread v hv := by
    rw [State.thread?_updThread]
    split
    · rename_i h; subst h; rwa [Option.isSome_map]
    · exact hv

theorem makeReady (s : State) (u : Nat) (atHead : Bool) : OnlyThreads s (s.makeReady u atHead) := by
  unfold State.makeReady
  split
  · exact refl s
  · exact trans (updThread s u fun t => { t with state := .ready }) (of_objects (by cases atHead <;> rfl))

theorem unready (s : State) (u : Nat) : OnlyThreads s (s.unready u) := by
  unfold State.unready
  split
  · exact refl s
  · exact ite _ (of_objects rfl) (refl s)

theorem readyForCallback (s : State) (u : Nat) : OnlyThreads s (s.readyForCallback u) := by
  unfold State.readyForCallback
  split
  · exact refl s
  · exact ite _ (makeReady s u false) (refl s)

theorem makePending (s : State) (cb : Nat) : OnlyThreads s (s.makePending cb) := by
  unfold State.makePending
  split
  · exact refl s
  · split
    · exact refl s
    · exact ite _ ((updThread s _ _).trans (readyForCallback _ _)) (refl s)

theorem collectPending (s : State) (u : Nat) : OnlyThreads s (s.collectPending u) := foldl State.makePending makePending _ s

theorem waitCurrent (s : State) (reason : WaitReason) (allow : Bool) : OnlyThreads s (s.waitCurrent reason allow) := by
  unfold State.waitCurrent
  split
  · exact refl s
  · rename_i c _
    have hcell : OnlyThreads s ((s.unready c).withKernel fun k => { k with
        waitObjects := k.waitObjects ++ [(s.kernel.nextWaitObject, { ended := false, result := none })]
        nextWaitObject := s.kernel.nextWaitObject + 1 }) := (unready s c).trans (of_objects rfl)
    exact ((hcell.trans (updThread _ c _)).trans (collectPending _ c)).trans (readyForCallback _ c)

end OnlyThreads

/-! ## The end of a wait (R321) -/

/-- A thread whose wait has ended (R321). -/
def Thread.woken (t : Thread) : Thread :=
  { t with
    waitReason := none
    waitAllowsCallbacks := false
    state := match t.state with
      | .wait => .ready
      | .waitSuspend => .suspend
      | st => st }

/-- What the end of a wait on cell `w` makes of a thread: it is woken where that is its wait, and the callback that interrupted the
wait allows no other where a callback is in flight (R321, R329). -/
def Thread.endWait (w : Nat) (t : Thread) : Thread :=
  if t.waitObject = some w then t.woken
  else if t.interruptedOn w then { t with waitAllowsCallbacks := false } else t

theorem Thread.endWait_of_eq {t : Thread} {w : Nat} (h : t.waitObject = some w) : t.endWait w = t.woken := if_pos h

/-- A thread that waits on another cell is left alone. -/
theorem Thread.endWait_of_ne {t : Thread} {w v : Nat} (h : t.waitObject = some v) (hne : v ≠ w) : t.endWait w = t := by
  have hin : t.interruptedOn w = false := by simp [Thread.interruptedOn, h]
  rw [Thread.endWait, if_neg (by simpa [h] using hne), hin, if_neg (by decide)]

theorem State.makeReady_of_some {s : State} {u : Nat} {t : Thread} (h : s.kernel.thread? u = some t) :
    s.makeReady u false =
      (s.updThread u fun t => { t with state := .ready }).withKernel fun k => k.enqueueTail u t.priority := by
  simp only [State.makeReady, h, Bool.false_eq_true, if_false]

/-- A wake-up whose wait reason is gone succeeds: the thread is woken, and joins its level where it was WAIT (R321). -/
theorem State.wakeUp_of_some {s : State} {u : Nat} {t : Thread} (h : s.kernel.thread? u = some t)
    (hr : t.waitReason = none) : s.wakeUp u = some (
      if t.state = .wait then (s.updThread u Thread.woken).withKernel fun k => k.enqueueTail u t.priority
      else s.updThread u Thread.woken) := by
  have h1 := State.updThread_thread s u t (fun t => { t with waitAllowsCallbacks := false }) h
  cases hst : t.state
  case wait =>
    simp only [State.wakeUp, h, hr, hst, Option.isSome_none, Bool.false_eq_true, if_false, if_true, State.makeReady_of_some h1,
      State.updThread_updThread]
    rw [State.updThread_congr (g := Thread.woken) h (by simp [Thread.woken, hst, hr])]
  case waitSuspend =>
    simp only [State.wakeUp, h, hr, hst, Option.isSome_none, Bool.false_eq_true, if_false, State.updThread_updThread]
    rw [State.updThread_congr (g := Thread.woken) h (by simp [Thread.woken, hst, hr]), if_neg nofun]
  all_goals
    simp only [State.wakeUp, h, hr, hst, Option.isSome_none, Bool.false_eq_true, if_false]
    rw [State.updThread_congr (g := Thread.woken) h (by simp [Thread.woken, hst, hr]), if_neg nofun]

/-- The end of a wait: the cell ends; and the thread is left alone, or changes, or is woken out of WAIT into its level. -/
theorem State.endWait_cases (s : State) (u w : Nat) (r : Option Word) :
    (s.endWait u w r = (s.withKernel fun k => k.endCell w r) ∧
      ∀ t, s.kernel.thread? u = some t → t.waitObject ≠ some w ∧ t.endWait w = t) ∨
    (∃ t, s.kernel.thread? u = some t ∧ (t.waitObject = some w → t.state ≠ .wait) ∧
      s.endWait u w r = (s.withKernel fun k => k.endCell w r).updThread u (Thread.endWait w)) ∨
    ∃ t, s.kernel.thread? u = some t ∧ t.waitObject = some w ∧ t.state = .wait ∧
      s.endWait u w r = ((s.withKernel fun k => k.endCell w r).updThread u (Thread.endWait w)).withKernel fun k =>
        k.enqueueTail u t.priority := by
  cases ht : s.kernel.thread? u with
  | none =>
    have ht1 : (s.withKernel fun k => k.endCell w r).kernel.thread? u = none := ht
    exact .inl ⟨by simp only [State.endWait, ht1], fun t h => by cases h⟩
  | some t =>
    have ht1 : (s.withKernel fun k => k.endCell w r).kernel.thread? u = some t := ht
    by_cases hw : t.waitObject = some w
    · have h2 := State.updThread_thread _ u t (fun t => { t with waitReason := none }) ht1
      have hwoken : ((s.withKernel fun k => k.endCell w r).updThread u fun t => { t with waitReason := none }).updThread u
          Thread.woken = (s.withKernel fun k => k.endCell w r).updThread u (Thread.endWait w) := by
        rw [State.updThread_updThread]
        exact State.updThread_congr ht1 (by rw [Thread.endWait_of_eq hw]; rfl)
      refine .inr ?_
      by_cases hst : t.state = .wait
      · refine .inr ⟨t, rfl, hw, hst, ?_⟩
        simp only [State.endWait, ht1, hw, if_true, State.wakeUp_of_some h2 rfl, hst, Option.getD_some, hwoken]
      · refine .inl ⟨t, rfl, fun _ => hst, ?_⟩
        simp only [State.endWait, ht1, hw, if_true, State.wakeUp_of_some h2 rfl, hst, if_false, Option.getD_some, hwoken]
    · cases hin : t.interruptedOn w
      · refine .inl ⟨by simp only [State.endWait, ht1, hw, hin, if_false, Bool.false_eq_true], fun t' h => ?_⟩
        cases h
        exact ⟨hw, by simp [Thread.endWait, hw, hin]⟩
      · refine .inr (.inl ⟨t, rfl, fun h => absurd h hw, ?_⟩)
        simp only [State.endWait, ht1, hw, hin, if_false, if_true]
        exact State.updThread_congr ht1 (by simp [Thread.endWait, hw, hin])

section
variable (s : State) (u w : Nat) (r : Option Word)

/-- Only the thread named changes, as `Thread.endWait` says. -/
theorem State.thread?_endWait (v : Nat) : (s.endWait u w r).kernel.thread? v =
    if v = u then (s.kernel.thread? u).map (Thread.endWait w) else s.kernel.thread? v := by
  obtain ⟨he, hsame⟩ | ⟨t, -, -, he⟩ | ⟨t, -, -, -, he⟩ := s.endWait_cases u w r
  · rw [he]
    split
    · rename_i h
      subst h
      show s.kernel.thread? v = _
      cases ht : s.kernel.thread? v with
      | none => rfl
      | some t => rw [Option.map_some, (hsame t ht).2]
    · rfl
  · rw [he]; exact State.thread?_updThread _ u v _
  · rw [he]; exact State.thread?_updThread _ u v _

theorem OnlyThreads.endWait : OnlyThreads s (s.endWait u w r) := by
  have hcell : OnlyThreads s (s.withKernel fun k => k.endCell w r) := .of_objects rfl
  obtain ⟨he, -⟩ | ⟨t, -, -, he⟩ | ⟨t, -, -, -, he⟩ := s.endWait_cases u w r <;> rw [he]
  · exact hcell
  · exact hcell.trans (.updThread _ u _)
  · exact (hcell.trans (.updThread _ u _)).trans (.of_objects rfl)

@[simp] theorem State.endWait_events : (s.endWait u w r).kernel.events = s.kernel.events := by
  obtain ⟨he, -⟩ | ⟨t, -, -, he⟩ | ⟨t, -, -, -, he⟩ := s.endWait_cases u w r <;> rw [he]
  · rfl
  · exact State.updThread_events _ _ _
  · exact State.updThread_events _ _ _

theorem State.endWait_waitObjects : (s.endWait u w r).kernel.waitObjects = (s.kernel.endCell w r).waitObjects := by
  obtain ⟨he, -⟩ | ⟨t, -, -, he⟩ | ⟨t, -, -, -, he⟩ := s.endWait_cases u w r <;> rw [he]
  · rfl
  · exact State.updThread_waitObjects _ _ _
  · exact State.updThread_waitObjects _ _ _

/-- No thread leaves a level. -/
theorem State.mem_ready_endWait {v : Nat} {p : Fin 128} (h : v ∈ s.kernel.ready[p]) :
    v ∈ (s.endWait u w r).kernel.ready[p] := by
  have hcell : v ∈ ((s.withKernel fun k => k.endCell w r).updThread u (Thread.endWait w)).kernel.ready[p] := by
    rw [State.updThread_ready]; exact h
  obtain ⟨he, -⟩ | ⟨t, -, -, he⟩ | ⟨t, -, -, -, he⟩ := s.endWait_cases u w r <;> rw [he]
  · exact h
  · exact hcell
  · exact Kernel.mem_ready_enqueueTail _ u p t.priority hcell

/-- A thread that leaves WAIT joins its level. -/
theorem State.mem_ready_endWait_self {t : Thread} (ht : s.kernel.thread? u = some t) (hw : t.waitObject = some w)
    (hst : t.state = .wait) : u ∈ (s.endWait u w r).kernel.ready[t.priority] := by
  obtain ⟨-, h⟩ | ⟨t', ht', h, -⟩ | ⟨t', ht', -, -, he⟩ := s.endWait_cases u w r
  · exact absurd hw (h t ht).1
  · cases ht.symm.trans ht'
    exact absurd hst (h hw)
  · cases ht.symm.trans ht'
    rw [he]
    exact Kernel.mem_ready_enqueueTail_self _ u t.priority

/-- The cell after the end of its wait, and every other. -/
theorem Kernel.waitObject?_endCell (k : Kernel) (v : Nat) : (k.endCell w r).waitObject? v =
    if v = w then (k.waitObject? v).map fun _ => { ended := true, result := r } else k.waitObject? v := by
  unfold Kernel.waitObject? Kernel.endCell
  simp only
  induction k.waitObjects with
  | nil => simp
  | cons o l ih =>
    obtain ⟨a, o⟩ := o
    by_cases ha : a = v
    · subst ha
      by_cases haw : a = w <;> simp [haw]
    · by_cases haw : a = w
      · subst haw
        simpa [ha, Ne.symm ha] using ih
      · simpa [ha, haw] using ih

theorem State.waitObject?_endWait (v : Nat) : (s.endWait u w r).kernel.waitObject? v =
    if v = w then (s.kernel.waitObject? v).map fun _ => { ended := true, result := r } else s.kernel.waitObject? v := by
  rw [← Kernel.waitObject?_endCell w r s.kernel v]
  simp only [Kernel.waitObject?, State.endWait_waitObjects]

end

end Sys2Proof.Machine
end

section
/-! SUPPORT. Callback injection and return (R326 to R330) and the context switch (R318): what each makes of the live context and of
the thread. -/

namespace Sys2Proof.Machine

/-! ## Injection (R327) -/

/-- The live context that enters a callback `cb`, which returns to `ret` (R327). -/
def Context.enterCallback (c : Context) (cb : Callback) (ret : Word) : Context :=
  ((((c.setX 4#5 cb.notifyCount).setX 5#5 cb.notifyArg).setX 6#5 cb.common).setX 31#5 ret).jumpTo cb.entry

/-- A thread with callback `cb` running on top of the context `ctx` and of the wait that it interrupts (R327, R329). -/
def Thread.injected (ctx : Context) (cb : Nat) (rest : List Nat) (t : Thread) : Thread :=
  { t with
    callbacksPending := rest
    callbacksRunning := cb :: t.callbacksRunning
    callbackStack := (ctx, t.snapshot) :: t.callbackStack
    waitReason := none
    waitObject := none }

theorem State.switchState_inject {s : State} {u cb : Nat} {rest : List Nat} {t : Thread} {c : Callback}
    (ht : s.kernel.thread? u = some t) (hp : t.callbacksPending = cb :: rest)
    (hi : t.callbacksRunning = [] ∨ t.reentrant = true) (hc : s.kernel.callback? cb = some c) :
    s.switchState u = { (s.updThread u (Thread.injected s.cpu cb rest)).setPayload cb
      (.callback { c with notifyCount := 0#32, notifyArg := 0#32 }) with
      cpu := s.cpu.enterCallback c s.par.callbackReturnAddr } := by
  have hgo : (t.callbacksRunning.isEmpty || t.reentrant) = true := by simpa using hi
  simp only [State.switchState, ht, hp, hgo, if_true, hc]
  rfl

/-- A thread with no pending callback goes on as it is. -/
theorem State.switchState_of_nil {s : State} {u : Nat} {t : Thread} (ht : s.kernel.thread? u = some t)
    (hp : t.callbacksPending = []) : s.switchState u = s := by
  simp only [State.switchState, ht, hp]

section
variable (c : Context) (cb : Callback) (ret : Word)

/-- The registers that a callback is entered with. -/
theorem Context.x_enterCallback (r : Reg) : (c.enterCallback cb ret).x r =
    if r = 4#5 then cb.notifyCount else if r = 5#5 then cb.notifyArg else if r = 6#5 then cb.common
    else if r = 31#5 then ret else c.x r := by
  show ((((c.setX 4#5 cb.notifyCount).setX 5#5 cb.notifyArg).setX 6#5 cb.common).setX 31#5 ret).x r = _
  simp only [Context.x_setX]
  by_cases h0 : r = 0#5
  · subst h0; rfl
  · rw [if_neg h0]
    split
    · rename_i h; subst h; rfl
    · (repeat' split) <;> simp_all

theorem Context.enterCallback_eq : c.enterCallback cb ret =
    { c with gpr := (c.enterCallback cb ret).gpr, pc := cb.entry, nextPc := cb.entry + 4#32, ds := false } := by
  unfold Context.enterCallback
  rw [Context.setX_eq, Context.setX_eq (Context.setX _ 5#5 _), Context.setX_eq (Context.setX _ 4#5 _), Context.setX_eq c]
  rfl

end

/-- Settles O42: the one write of the thread, the one of the callback, and the context that enters it. -/
theorem callbackInjection : Obligations.CallbackInjection := by
  intro s u cb rest th c ht hp hi hc
  have hs1 : SameWorld s (s.switchState u) := .switchState s u
  have hx : ∀ r, (s.switchState u).x r = (s.cpu.enterCallback c s.par.callbackReturnAddr).x r := fun r => by
    rw [State.switchState_inject ht hp hi hc]; rfl
  have hcpu := congrArg State.cpu (State.switchState_inject ht hp hi hc)
  dsimp only at hcpu
  rw [Context.enterCallback_eq] at hcpu
  have hkernel := congrArg State.kernel (State.switchState_inject ht hp hi hc)
  dsimp only at hkernel
  have hcb := (OnlyThreads.updThread s u (Thread.injected s.cpu cb rest)).callback?_eq cb
  have hthread : ∀ v, (s.switchState u).kernel.thread? v = (s.updThread u (Thread.injected s.cpu cb rest)).kernel.thread? v :=
    fun v => by rw [hkernel, State.thread?_setPayload (Kernel.view_of_callback (hcb.trans hc)) rfl]
  refine ⟨?_, ?_, ?_, ?_, fun r hr => ?_, by rw [hcpu], by rw [hcpu], by rw [hcpu], by rw [hcpu], by rw [hcpu], by rw [hcpu],
    by rw [hcpu], ⟨fun q => ?_, by rw [hcpu]⟩, ⟨fun a => by rw [hs1.mem], hs1.gpu⟩, ?_, fun v hv => ?_, ?_⟩
  · rw [hx, Context.x_enterCallback]; rfl
  · rw [hx, Context.x_enterCallback]; rfl
  · rw [hx, Context.x_enterCallback]; rfl
  · rw [hx, Context.x_enterCallback]; rfl
  · rw [hx, Context.x_enterCallback]
    simp only [List.mem_cons, List.not_mem_nil, or_false, not_or] at hr
    obtain ⟨h4, h5, h6, h31⟩ := hr
    rw [if_neg h4, if_neg h5, if_neg h6, if_neg h31]
    rfl
  · rw [State.f, hcpu]; rfl
  · rw [hthread, State.updThread_thread s u th _ ht, Thread.injected, Thread.snapshot]
    cases th.waitObject <;> rfl
  · rw [hthread, State.thread?_updThread_other _ hv]
  · refine ⟨{ c with notifyCount := 0#32, notifyArg := 0#32 }, ?_, rfl, rfl⟩
    rw [hkernel]
    exact State.callback?_setPayload (hcb.trans hc) _

/-! ## The return from a callback (R328) -/

/-- Where no callback has been notified, none becomes pending (R326). -/
theorem State.collectPending_of_quiet {s : State} (h : ∀ d c, s.kernel.callback? d = some c → c.notifyCount = 0#32)
    (u : Nat) : s.collectPending u = s := by
  have hstep : ∀ cb, s.makePending cb = s := fun cb => by
    unfold State.makePending
    split
    · rfl
    · rename_i c hc
      split
      · rfl
      · exact if_neg fun hp => hp.1 (h cb c hc)
  unfold State.collectPending
  generalize s.kernel.callbacksOf u = l
  induction l with
  | nil => rfl
  | cons cb l ih => rw [List.foldl_cons, hstep, ih]

/-- The state after the last callback of a thread has returned into no wait. -/
def State.afterCallback (s : State) (u : Nat) (saved : Context) : State :=
  { s.updThread u fun t => { t with callbackStack := [], callbacksRunning := t.callbacksRunning.tail } with cpu := saved }

/-- A thread that is RUN goes on, where nothing is notified or requested (R328, R286 step 6). -/
theorem State.continueRun_of_quiet {s : State} {u : Nat} {t : Thread} (hcur : s.kernel.current = some u)
    (ht : s.kernel.thread? u = some t) (hst : t.state = .run) (hp : t.callbacksPending = [])
    (hquiet : ∀ d c, s.kernel.callback? d = some c → c.notifyCount = 0#32) (hreq : s.kernel.reschedRequested = false)
    (hclosing : s.kernel.closing = false) : s.continueRun u = s.resume := by
  have hruns := Kernel.currentRuns_of_run hcur ht hst
  rw [State.continueRun, State.collectPending_of_quiet hquiet]
  simp only [hruns, if_true, State.switchState_of_nil ht hp]
  exact State.endHost_resume hclosing hreq hruns

theorem State.callbackReturn_of_single {s : State} {u : Nat} {t : Thread} {saved : Context}
    (hcur : s.kernel.current = some u) (ht : s.kernel.thread? u = some t) (hstack : t.callbackStack = [(saved, none)]) :
    s.callbackReturn = (s.afterCallback u saved).continueRun u := by
  simp only [State.callbackReturn, Kernel.currentThread?_of_current hcur ht, hstack]
  rfl

/-- Settles O43: the return restores the context, and the thread goes on with no other callback. -/
theorem callbackReturnRestores : Obligations.CallbackReturnRestores := by
  intro s u th saved cb hrun hcur ht hst hstack hrunning hp hquiet hdue hreq hclosing
  have hth := State.updThread_thread s u th
    (fun t => { t with callbackStack := [], callbacksRunning := t.callbacksRunning.tail }) ht
  have hgo : s.callbackReturn = (s.afterCallback u saved).resume := by
    rw [State.callbackReturn_of_single hcur ht hstack]
    refine State.continueRun_of_quiet (State.updThread_current s u _ ▸ hcur) hth hst hp (fun d c hc => hquiet d c ?_)
      ((State.updThread_reschedRequested s u _).trans hreq) ((State.updThread_closing s u _).trans hclosing)
    exact ((OnlyThreads.updThread s u _).callback?_eq d).symm.trans hc
  have hworld : SameWorld s s.callbackReturn := .callbackReturn s
  have hstep : step s = .next s.callbackReturn := by
    simp only [step, hrun, State.hostStep, State.orDue_of_none hdue]
  refine ⟨s.callbackReturn, hstep, by rw [hgo]; rfl, by rw [hgo]; rfl, ?_, ?_, hworld.mem, hworld.cycles⟩ <;> rw [hgo]
  · exact (State.updThread_current s u _).trans hcur
  · exact ⟨_, hth, rfl, by rw [hrunning]; rfl, hp⟩

/-! ## The context switch (R318) -/

/-- Thread `u` as it leaves the processor with the live context `ctx`: READY where it was RUN (R318). -/
def Thread.switchedOut (ctx : Context) (t : Thread) : Thread :=
  { t with context := ctx, state := if t.state = .run then .ready else t.state }

/-- The outgoing half changes the current thread and no other. -/
theorem State.thread?_saveCurrent {s : State} {c : Nat} {t : Thread} (hcur : s.kernel.current = some c)
    (ht : s.kernel.thread? c = some t) (atHead : Bool) (v : Nat) : (s.saveCurrent atHead).kernel.thread? v =
      if v = c then some (t.switchedOut s.cpu) else s.kernel.thread? v := by
  have h1 := State.updThread_thread s c t (fun t => { t with context := s.cpu }) ht
  simp only [State.saveCurrent, Kernel.currentThread?_of_current hcur ht]
  split
  · rename_i hst
    rw [State.thread?_makeReady, State.thread?_updThread, State.thread?_updThread, ht]
    split <;> simp [Thread.switchedOut, hst]
  · rename_i hst
    rw [State.thread?_updThread, ht]
    split <;> simp [Thread.switchedOut, hst]

/-- A thread that is in no wait has no result to deliver (R320). -/
theorem State.deliver_of_none {s : State} {u : Nat} {t : Thread} (ht : s.kernel.thread? u = some t)
    (hw : t.waitObject = none) : s.deliver u = s := by
  simp only [State.deliver, ht, hw]

/-- Thread `n`, so far `t`, has left its level and is RUN and current, with its context live (R318). -/
def State.restored (s : State) (n : Nat) (t : Thread) : State :=
  { ((s.withKernel fun k => k.dequeue n t.priority).updThread n fun t => { t with state := .run }).setCurrent (some n) with
    cpu := t.context }

theorem State.thread?_restored {s : State} {n : Nat} {t : Thread} (ht : s.kernel.thread? n = some t) (v : Nat) :
    (s.restored n t).kernel.thread? v = if v = n then some { t with state := .run } else s.kernel.thread? v := by
  refine (State.thread?_updThread (s.withKernel fun k => k.dequeue n t.priority) n v fun t => { t with state := .run }).trans ?_
  show (if v = n then (s.kernel.thread? n).map _ else s.kernel.thread? v) = _
  rw [ht]
  rfl

/-- The incoming half, of a thread with nothing to deliver and nothing to inject. -/
theorem State.switchIn_of_idle {s : State} {n : Nat} {t : Thread} (ht : s.kernel.thread? n = some t)
    (hp : t.callbacksPending = []) (hw : t.waitObject = none) : s.switchIn n true = (s.restored n t).resume := by
  have hin : s.switchIn n true = (((s.restored n t).deliver n).switchState n).resume := by
    simp only [State.switchIn, ht, if_true]
    rfl
  have ht1 := (State.thread?_restored ht n).trans (if_pos rfl)
  rw [hin, State.deliver_of_none ht1 hw, State.switchState_of_nil ht1 hp]

/-- Settles O44: the outgoing half, and the incoming half of a thread with nothing to deliver or to inject. -/
theorem contextSwitch : Obligations.ContextSwitch := by
  intro s c n tc tn yield hne hcur htc htn hp hw
  have hout := State.thread?_saveCurrent hcur htc (!yield)
  have hn : (s.saveCurrent (!yield)).kernel.thread? n = some tn := by rw [hout, if_neg (Ne.symm hne), htn]
  have hswitch : s.switchTo n yield = ((s.saveCurrent (!yield)).restored n tn).resume := by
    rw [State.switchTo, if_neg fun h => hne (Option.some.inj (hcur.symm.trans h)), State.switchIn_of_idle hn hp hw]
  have hthread := State.thread?_restored hn
  rw [hswitch]
  refine ⟨rfl, rfl, rfl, ⟨_, (hthread n).trans (if_pos rfl), rfl⟩, tc.switchedOut s.cpu, ?_, rfl, rfl⟩
  rw [State.resume_kernel, hthread, if_neg hne, hout, if_pos rfl]

end Sys2Proof.Machine
end

section
/-! SUPPORT. Wait queues (R325), the wait on a primitive, the waits that a grant ends, and the mutex (R333, R334). -/

namespace Sys2Proof.Machine

/-! ## Wait queues (R325) -/

/-- A queue in the order of the priorities `prio`. -/
def SortedBy (prio : Nat → Nat) (q : List WaitRecord) : Prop := q.Pairwise fun r r' => prio r.thread ≤ prio r'.thread

theorem insertByPriority_perm (prio : Nat → Nat) (r : WaitRecord) : ∀ q : List WaitRecord,
    (insertByPriority prio r q).Perm (r :: q)
  | [] => .refl _
  | x :: q => by
    rw [insertByPriority]
    split
    · exact .refl _
    · exact ((insertByPriority_perm prio r q).cons x).trans (.swap r x q)

theorem sortedBy_insertByPriority {prio : Nat → Nat} {r : WaitRecord} : ∀ {q : List WaitRecord}, SortedBy prio q →
    SortedBy prio (insertByPriority prio r q)
  | [], _ => List.pairwise_singleton _ _
  | x :: q, h => by
    obtain ⟨hx, hq⟩ := List.pairwise_cons.mp h
    rw [insertByPriority]
    split
    · rename_i hlt
      exact List.pairwise_cons.mpr ⟨List.forall_mem_cons.mpr ⟨Nat.le_of_lt hlt, fun y hy =>
        Nat.le_trans (Nat.le_of_lt hlt) (hx y hy)⟩, h⟩
    · rename_i hlt
      refine List.pairwise_cons.mpr ⟨fun y hy => ?_, sortedBy_insertByPriority hq⟩
      obtain rfl | hy := List.mem_cons.mp ((insertByPriority_perm prio r q).mem_iff.mp hy)
      · exact Nat.le_of_not_lt hlt
      · exact hx y hy

/-! ## The wait on a primitive (R320) -/

/-- `t` waits for `reason` on cell `w`, and the wait allows no callbacks. -/
structure Thread.WaitsOn (t : Thread) (reason : WaitReason) (w : Nat) : Prop where
  state : t.state = .wait
  reason : t.waitReason = some reason
  cell : t.waitObject = some w
  allows : t.waitAllowsCallbacks = false

/-- Thread `c` waits for `reason` on cell `w`, with no callback to come. -/
def State.Waits (s : State) (c : Nat) (reason : WaitReason) (w : Nat) : Prop :=
  ∃ t, s.kernel.thread? c = some t ∧ t.WaitsOn reason w

namespace State.Waits

variable {s : State} {c w : Nat} {reason : WaitReason}

/-- A wait that allows no callbacks goes on when some thread may run one (R330). -/
theorem readyForCallback (h : s.Waits c reason w) (u : Nat) : (s.readyForCallback u).Waits c reason w := by
  obtain ⟨t, ht, hw⟩ := h
  unfold State.readyForCallback
  split
  · exact ⟨t, ht, hw⟩
  · split
    · rename_i t' ht' hready
      obtain ⟨-, hallows, -⟩ := hready
      have hne : c ≠ u := fun e => by
        subst e
        cases ht.symm.trans ht'
        exact absurd hallows (by simp [hw.allows])
      exact ⟨t, by rw [State.thread?_makeReady, if_neg hne, ht], hw⟩
    · exact ⟨t, ht, hw⟩

theorem makePending (h : s.Waits c reason w) (cb : Nat) : (s.makePending cb).Waits c reason w := by
  obtain ⟨t, ht, hw⟩ := h
  unfold State.makePending
  split
  · exact ⟨t, ht, hw⟩
  · rename_i d _
    split
    · exact ⟨t, ht, hw⟩
    · split
      · refine readyForCallback ?_ _
        by_cases hc : c = d.thread
        · subst hc
          exact ⟨_, State.updThread_thread s d.thread t _ ht, hw.state, hw.reason, hw.cell, hw.allows⟩
        · exact ⟨t, (State.thread?_updThread_other _ hc).trans ht, hw⟩
      · exact ⟨t, ht, hw⟩

theorem collectPending (h : s.Waits c reason w) (u : Nat) : (s.collectPending u).Waits c reason w := by
  unfold State.collectPending
  generalize s.kernel.callbacksOf u = l
  induction l generalizing s with
  | nil => exact h
  | cons cb l ih => exact ih (h.makePending cb)

end State.Waits

/-- The current thread waits (R320), on a fresh cell. -/
theorem State.waits_waitCurrent {s : State} {c : Nat} {t : Thread} (hcur : s.kernel.current = some c)
    (ht : s.kernel.thread? c = some t) (reason : WaitReason) :
    (s.waitCurrent reason false).Waits c reason s.kernel.nextWaitObject := by
  have hready : (s.unready c).kernel.thread? c = some t := by
    simp only [State.unready, ht]
    split <;> exact ht
  simp only [State.waitCurrent, hcur]
  refine ((State.Waits.collectPending ?_ c).readyForCallback c)
  exact ⟨_, State.updThread_thread _ c t _ hready, rfl, rfl, rfl, rfl⟩

/-! ## The waits that a grant ends (R321, R324) -/

theorem State.endRecords_cons (s : State) (e : WaitRecord) (rs : List WaitRecord) (r : Option Word) :
    s.endRecords (e :: rs) r = ((s.unscheduleTimer e.timer).endWait e.thread e.waitObject r).endRecords rs r := rfl

@[simp] theorem State.unscheduleTimer_objects (s : State) (t : Option Nat) :
    (s.unscheduleTimer t).kernel.objects = s.kernel.objects := by cases t <;> rfl

theorem State.thread?_unscheduleTimer (s : State) (t : Option Nat) (v : Nat) :
    (s.unscheduleTimer t).kernel.thread? v = s.kernel.thread? v := by cases t <;> rfl

theorem OnlyThreads.endRecords (s : State) (rs : List WaitRecord) (r : Option Word) : OnlyThreads s (s.endRecords rs r) :=
  .foldl (fun (s : State) (e : WaitRecord) => (s.unscheduleTimer e.timer).endWait e.thread e.waitObject r)
    (fun s e => (of_objects (s.unscheduleTimer_objects e.timer)).trans (.endWait _ e.thread e.waitObject r)) rs s

theorem State.thread?_endRecords_singleton (s : State) (e : WaitRecord) (r : Option Word) (v : Nat) :
    (s.endRecords [e] r).kernel.thread? v =
      if v = e.thread then (s.kernel.thread? e.thread).map (Thread.endWait e.waitObject) else s.kernel.thread? v := by
  rw [State.endRecords_cons]
  refine (State.thread?_endWait _ e.thread e.waitObject r v).trans ?_
  simp only [State.thread?_unscheduleTimer]

/-! ## Mutexes (R333, R334) -/

/-- The record of a wait on a mutex (R325). -/
def lockRecord (c w n : Nat) : WaitRecord := { thread := c, waitObject := w, timer := none, cond := .locks n }

/-- The mutex with a record in its place in the queue (R325). -/
def Mutex.enqueued (x : Mutex) (prio : Nat → Nat) (r : WaitRecord) : Mutex :=
  { x with queue := if x.priorityOrdered then insertByPriority prio r x.queue else x.queue ++ [r] }

theorem Mutex.enqueued_perm (x : Mutex) (prio : Nat → Nat) (r : WaitRecord) :
    (x.enqueued prio r).queue.Perm (x.queue ++ [r]) := by
  unfold Mutex.enqueued
  cases x.priorityOrdered
  · exact .refl _
  · exact (insertByPriority_perm prio r x.queue).trans (List.perm_append_singleton r x.queue).symm

/-- In a queue that is not ordered by priority a record joins the tail. -/
theorem Mutex.enqueued_take {x : Mutex} (h : x.priorityOrdered = false) (prio : Nat → Nat) (r : WaitRecord) :
    (x.enqueued prio r).queue.take x.queue.length = x.queue := by
  simp [Mutex.enqueued, h]

theorem Mutex.enqueued_sorted {x : Mutex} {prio : Nat → Nat} (h : x.priorityOrdered = true) (hq : SortedBy prio x.queue)
    (r : WaitRecord) : SortedBy prio (x.enqueued prio r).queue := by
  simpa [Mutex.enqueued, h] using sortedBy_insertByPriority hq

section
variable {s : State} {uid n c : Nat} {x : Mutex}

/-- A write of a mutex changes no thread. -/
theorem State.thread?_setMutex (hx : s.kernel.mutex? uid = some x) (y : Mutex) (u : Nat) :
    (s.setPayload uid (.mutex y)).kernel.thread? u = s.kernel.thread? u :=
  State.thread?_setPayload (Kernel.view_of_mutex hx) rfl u

/-- Anyone but the owner waits for a mutex that is held, with a record in its queue (R333). -/
theorem State.lockMutex_of_held (hx : s.kernel.mutex? uid = some x) (hcur : s.kernel.current = some c)
    (hheld : x.lockCount ≠ 0) (howner : x.owner ≠ some c) :
    s.lockMutex uid x n 0#32 false = .ok ((s.setPayload uid
      (.mutex (x.enqueued s.kernel.priorityOf (lockRecord c s.kernel.nextWaitObject n)))).waitCurrent (.mutex uid) false) := by
  obtain ⟨name, hl⟩ := Kernel.lookup_of_mutex hx
  simp only [State.lockMutex, if_neg hheld, hcur, if_neg howner, State.blockOn, hl, if_true]
  rfl

/-- An unlock by the owner, within the count, takes it off and grants the head of the queue where nothing is left (R334). -/
theorem State.unlockMutex_of_owner (hcur : s.kernel.current = some c) (howner : x.owner = some c) (hn : n ≤ x.lockCount) :
    s.unlockMutex uid x n = some ((s.setPayload uid (.mutex { x with lockCount := x.lockCount - n })).grantMutex uid) := by
  have hgo : ¬(x.owner ≠ s.kernel.current ∨ x.lockCount < n) := by
    rintro (h | h)
    · exact h (howner.trans hcur.symm)
    · omega
  rw [State.unlockMutex, if_neg hgo]

/-- An unlock of the whole count leaves a free mutex to grant. -/
theorem State.unlockMutex_of_last (hcur : s.kernel.current = some c) (howner : x.owner = some c) (hn : n = x.lockCount) :
    s.unlockMutex uid x n = some ((s.setPayload uid (.mutex { x with lockCount := 0 })).grantMutex uid) := by
  rw [State.unlockMutex_of_owner hcur howner (Nat.le_of_eq hn), Nat.sub_eq_zero_of_le (Nat.le_of_eq hn.symm)]

theorem State.grantMutex_of_held (hx : s.kernel.mutex? uid = some x) (hheld : x.lockCount ≠ 0) : s.grantMutex uid = s := by
  simp only [State.grantMutex, hx, if_neg hheld]

theorem State.grantMutex_of_nil (hx : s.kernel.mutex? uid = some x) (hfree : x.lockCount = 0) (hq : x.queue = []) :
    s.grantMutex uid = s.setPayload uid (.mutex { x with owner := none }) := by
  simp only [State.grantMutex, hx, if_pos hfree, hq]

theorem State.grantMutex_of_cons {r : WaitRecord} {rest : List WaitRecord} (hx : s.kernel.mutex? uid = some x)
    (hfree : x.lockCount = 0) (hq : x.queue = r :: rest) : s.grantMutex uid =
      (s.setPayload uid (.mutex { x with owner := some r.thread, lockCount := r.locks, queue := rest })).endRecords [r] none := by
  simp only [State.grantMutex, hx, if_pos hfree, hq]

end

/-- A thread that was WAIT is READY once its wait has ended, with no wait reason. -/
theorem Thread.endWait_of_wait {t : Thread} {w : Nat} (hw : t.waitObject = some w) (hst : t.state = .wait) :
    (t.endWait w).state = .ready ∧ (t.endWait w).waitReason = none ∧ (t.endWait w).waitObject = some w := by
  rw [Thread.endWait_of_eq hw]
  exact ⟨by simp [Thread.woken, hst], rfl, hw⟩

/-- Settles O49: each branch of lock and unlock, and what it leaves. -/
theorem mutexLockAndUnlock : Obligations.MutexLockAndUnlock := by
  intro s uid n c x th tp allow hx hcur hth
  have hset : ∀ y, (s.setPayload uid (.mutex y)).kernel.mutex? uid = some y := State.mutex?_setPayload hx
  have hthread := State.thread?_setMutex hx
  refine ⟨fun hfree => ?_, fun hheld howner => ?_, fun hheld howner => ?_, fun hrefused => ?_, fun howner hn => ?_,
    fun howner hn hq => ?_, fun r rest howner hn hq => ?_⟩
  · exact ⟨_, by rw [State.lockMutex, if_pos hfree, hcur], hset _, hthread _⟩
  · exact ⟨_, by rw [State.lockMutex, if_neg hheld, if_pos (howner.trans hcur.symm)], hset _, hthread _⟩
  · refine ⟨_, State.lockMutex_of_held hx hcur hheld howner, ?_, ?_⟩
    · obtain ⟨t, ht, hw⟩ := State.waits_waitCurrent ((State.setPayload_current s uid _).trans hcur)
        ((hthread (x.enqueued s.kernel.priorityOf (lockRecord c s.kernel.nextWaitObject n)) c).trans hth) (.mutex uid)
      exact ⟨t, ht, hw.state, hw.reason, hw.cell.trans (by rw [State.setPayload_nextWaitObject])⟩
    · exact ⟨_, ((OnlyThreads.waitCurrent _ _ _).mutex?_eq uid).trans (hset _), rfl, rfl, x.enqueued_perm _ _,
        fun h => Mutex.enqueued_take h _ _, fun h hq => Mutex.enqueued_sorted h hq _⟩
  · rw [State.unlockMutex, if_pos (by rwa [hcur])]
  · rw [State.unlockMutex_of_owner hcur howner (Nat.le_of_lt hn), State.grantMutex_of_held (hset _) (Nat.sub_ne_zero_of_lt hn)]
    exact ⟨_, rfl, hset _, hthread _⟩
  · rw [State.unlockMutex_of_last hcur howner hn, State.grantMutex_of_nil (hset { x with lockCount := 0 }) rfl hq,
      State.setPayload_setPayload]
    exact ⟨_, rfl, hset _⟩
  · rw [State.unlockMutex_of_last hcur howner hn, State.grantMutex_of_cons (hset { x with lockCount := 0 }) rfl hq,
      State.setPayload_setPayload]
    refine ⟨_, rfl, ((OnlyThreads.endRecords _ _ _).mutex?_eq uid).trans (hset _), fun w hw hcell hwait => ?_⟩
    obtain ⟨hstate, hreason, -⟩ := Thread.endWait_of_wait hcell hwait
    refine ⟨w.endWait r.waitObject, ?_, hstate, hreason⟩
    rw [State.thread?_endRecords_singleton, if_pos rfl, hthread, hw]
    rfl

end Sys2Proof.Machine
end

section
/-! SUPPORT. Event flags (R335, R336): what the wake scan does with one record and what follows for the queue, and the grants of a
scan as a fold over the granted records, each a write of an output cell and the end of a wait. -/

namespace Sys2Proof.Machine

/-! ## Patterns (R335) -/

theorem flagMatches_iff (pattern bits : Word) (mode : FlagMode) :
    flagMatches pattern bits mode = true ↔ flagFits pattern bits mode := by
  cases mode <;> simp [flagMatches, flagFits]

/-- Every bit of `p` is one of `q`. -/
def BitsWithin (p q : Word) : Prop := p &&& q = p

theorem BitsWithin.refl (p : Word) : BitsWithin p p := BitVec.and_self

theorem BitsWithin.trans {p q r : Word} (h : BitsWithin p q) (k : BitsWithin q r) : BitsWithin p r :=
  calc p &&& r = p &&& q &&& r := by rw [h]
    _ = p &&& (q &&& r) := BitVec.and_assoc p q r
    _ = p := by rw [k, h]

theorem bitsWithin_flagAfter (p bits : Word) (clear : Bool) : BitsWithin (flagAfter p bits clear) p := by
  cases clear
  · exact .refl p
  · show p &&& ~~~bits &&& p = p &&& ~~~bits
    rw [BitVec.and_comm, ← BitVec.and_assoc, BitVec.and_self]

/-- What fits a pattern fits every pattern with more bits. -/
theorem BitsWithin.fits {p q bits : Word} {mode : FlagMode} (h : BitsWithin p q) (hp : flagFits p bits mode) :
    flagFits q bits mode := by
  have hpq : p &&& bits = p &&& (q &&& bits) := by rw [← BitVec.and_assoc, h]
  cases mode
  · show q &&& bits = bits
    have hbits : p &&& bits = bits := hp
    calc q &&& bits = q &&& (p &&& bits) := by rw [hbits]
      _ = p &&& (q &&& bits) := by rw [← BitVec.and_assoc, BitVec.and_comm q p, BitVec.and_assoc]
      _ = bits := by rw [← hpq, hbits]
  · show q &&& bits ≠ 0#32
    intro hq
    have hne : p &&& bits ≠ 0#32 := hp
    rw [hpq, hq, BitVec.and_zero] at hne
    exact hne rfl

/-! ## The wake scan (R336) -/

/-- The scan grants a record whose bits match the pattern as it is there, and passes over every other. -/
theorem flagScan_cons_cases (pattern : Word) (r : WaitRecord) (rest : List WaitRecord) :
    (∃ bits mode clear out, r.cond = .bits bits mode clear out ∧ flagFits pattern bits mode ∧
      flagScan pattern (r :: rest) = ((flagScan (flagAfter pattern bits clear) rest).1,
        (flagScan (flagAfter pattern bits clear) rest).2.1,
        (r, pattern) :: (flagScan (flagAfter pattern bits clear) rest).2.2)) ∨
    ((∀ bits mode clear out, r.cond = .bits bits mode clear out → ¬ flagFits pattern bits mode) ∧
      flagScan pattern (r :: rest) =
        ((flagScan pattern rest).1, r :: (flagScan pattern rest).2.1, (flagScan pattern rest).2.2)) := by
  cases hc : r.cond with
  | bits b mode clear out =>
    by_cases hm : flagMatches pattern b mode = true
    · exact .inl ⟨b, mode, clear, out, rfl, (flagMatches_iff _ _ _).mp hm, by simp only [flagScan, hc, hm, if_true]⟩
    · refine .inr ⟨fun b' mode' clear' out' h hf => ?_, by simp only [flagScan, hc, if_neg hm]⟩
      cases h
      exact hm ((flagMatches_iff _ _ _).mpr hf)
  | need n => exact .inr ⟨nofun, by simp only [flagScan, hc]⟩
  | locks n => exact .inr ⟨nofun, by simp only [flagScan, hc]⟩

/-- The records that stay and the granted ones are together those of the queue. -/
theorem flagScan_perm (q : List WaitRecord) : ∀ pattern,
    ((flagScan pattern q).2.1 ++ (flagScan pattern q).2.2.map Prod.fst).Perm q := by
  induction q with
  | nil => exact fun _ => .refl _
  | cons r rest ih =>
    intro pattern
    obtain ⟨_, _, _, _, -, -, he⟩ | ⟨-, he⟩ := flagScan_cons_cases pattern r rest <;> rw [he]
    · exact List.perm_middle.trans ((ih _).cons r)
    · exact (ih pattern).cons r

theorem flagScan_sublist (q : List WaitRecord) : ∀ pattern,
    (flagScan pattern q).2.1.Sublist q ∧ ((flagScan pattern q).2.2.map Prod.fst).Sublist q := by
  induction q with
  | nil => exact fun _ => ⟨.refl _, .refl _⟩
  | cons r rest ih =>
    intro pattern
    obtain ⟨bits, _, clear, _, -, -, he⟩ | ⟨-, he⟩ := flagScan_cons_cases pattern r rest <;> rw [he]
    · obtain ⟨hstay, hgranted⟩ := ih (flagAfter pattern bits clear)
      exact ⟨hstay.cons r, hgranted.cons_cons r⟩
    · obtain ⟨hstay, hgranted⟩ := ih pattern
      exact ⟨hstay.cons_cons r, hgranted.cons r⟩

/-- The scan only clears bits. -/
theorem flagScan_bitsWithin (q : List WaitRecord) : ∀ pattern, BitsWithin (flagScan pattern q).1 pattern := by
  induction q with
  | nil => exact .refl
  | cons r rest ih =>
    intro pattern
    obtain ⟨bits, _, clear, _, -, -, he⟩ | ⟨-, he⟩ := flagScan_cons_cases pattern r rest <;> rw [he]
    · exact (ih _).trans (bitsWithin_flagAfter pattern bits clear)
    · exact ih pattern

/-- A granted record matched the pattern that it saw, which is what was left of the pattern before. -/
theorem flagScan_granted (q : List WaitRecord) : ∀ pattern, ∀ e ∈ (flagScan pattern q).2.2, BitsWithin e.2 pattern ∧
    ∃ bits mode clear out, e.1.cond = .bits bits mode clear out ∧ flagFits e.2 bits mode := by
  induction q with
  | nil => exact fun _ _ => nofun
  | cons r rest ih =>
    intro pattern
    obtain ⟨bits, mode, clear, out, hc, hf, he⟩ | ⟨-, he⟩ := flagScan_cons_cases pattern r rest <;> rw [he]
    · refine List.forall_mem_cons.mpr ⟨⟨.refl pattern, bits, mode, clear, out, hc, hf⟩, fun e hmem => ?_⟩
      obtain ⟨hw, hcond⟩ := ih _ e hmem
      exact ⟨hw.trans (bitsWithin_flagAfter pattern bits clear), hcond⟩
    · exact ih pattern

/-- No record that stays matches what is left of the pattern. -/
theorem flagScan_stays (q : List WaitRecord) : ∀ pattern, ∀ x ∈ (flagScan pattern q).2.1, ∀ bits mode clear out,
    x.cond = .bits bits mode clear out → ¬ flagFits (flagScan pattern q).1 bits mode := by
  induction q with
  | nil => exact fun _ _ => nofun
  | cons r rest ih =>
    intro pattern
    obtain ⟨_, _, _, _, -, -, he⟩ | ⟨hno, he⟩ := flagScan_cons_cases pattern r rest <;> rw [he]
    · exact ih _
    · refine List.forall_mem_cons.mpr ⟨fun bits mode clear out hc hf => ?_, ih pattern⟩
      exact hno bits mode clear out hc ((flagScan_bitsWithin rest pattern).fits hf)

/-- The scan of a queue goes on behind any part of it with the pattern that the part has left. -/
theorem flagScan_append (after : List WaitRecord) : ∀ (before : List WaitRecord) (pattern : Word),
    flagScan pattern (before ++ after) =
      ((flagScan (flagScan pattern before).1 after).1,
        (flagScan pattern before).2.1 ++ (flagScan (flagScan pattern before).1 after).2.1,
        (flagScan pattern before).2.2 ++ (flagScan (flagScan pattern before).1 after).2.2)
  | [], _ => rfl
  | r :: before, pattern => by
    cases hc : r.cond with
    | bits b mode clear out =>
      cases hm : flagMatches pattern b mode <;>
        simp [flagScan, hc, hm, flagScan_append after before]
    | need n => simp [flagScan, hc, flagScan_append after before]
    | locks n => simp [flagScan, hc, flagScan_append after before]

/-! ## Grants (R336) -/

/-- The state with `pattern` in the output cell at `pa`, where there is a cell. -/
def State.wroteOut (s : State) (out : Word) (pa : Nat) (pattern : Word) : State :=
  if out = 0#32 then s else s.storeBytes pa (wordBytes pattern)

theorem State.writeOut_of_ok {s : State} {out : Word} {pa : Nat} (h : out = 0#32 ∨ dataAddress s.par out 4 = .ok pa)
    (pattern : Word) : s.writeOut out pattern = .ok (s.wroteOut out pa pattern) := by
  unfold State.writeOut State.wroteOut
  split
  · rfl
  · exact State.storeChecked_of_ok (h.resolve_left ‹_›)

section
variable (s : State) (out : Word) (pa : Nat) (pattern : Word)

@[simp] theorem State.wroteOut_kernel : (s.wroteOut out pa pattern).kernel = s.kernel := by
  unfold State.wroteOut; split <;> rfl

@[simp] theorem State.wroteOut_par : (s.wroteOut out pa pattern).par = s.par := by
  unfold State.wroteOut; split <;> rfl

theorem State.wroteOut_of_zero : s.wroteOut 0#32 pa pattern = s := rfl

theorem State.wroteOut_of_ne (h : out ≠ 0#32) : s.wroteOut out pa pattern = s.storeBytes pa (wordBytes pattern) := if_neg h

variable (hm : Memory.wf s.mem = true)
include hm

theorem State.wroteOut_mem_wf : Memory.wf (s.wroteOut out pa pattern).mem = true := by
  unfold State.wroteOut
  split
  · exact hm
  · exact storeBytes_mem_wf s pa _ hm

/-- Only the output cell changes. -/
theorem State.read_wroteOut {a : Nat} (h : out ≠ 0#32 → a < pa ∨ pa + 4 ≤ a) :
    Memory.read (s.wroteOut out pa pattern).mem a = Memory.read s.mem a := by
  unfold State.wroteOut
  split
  · rfl
  · exact Memory.read_writeList_outside s.mem pa a _ hm (h ‹_›)

theorem State.word_wroteOut (h : out ≠ 0#32) : Memory.word (s.wroteOut out pa pattern).mem pa = pattern := by
  rw [State.wroteOut_of_ne s out pa pattern h]
  exact word_storeBytes_word hm pa pattern

end

/-- One granted record of a scan: its output cell is written, and its wait ends. -/
def State.grantedFlag (pa : WaitRecord → Nat) (s : State) (e : WaitRecord × Word) : State :=
  (s.wroteOut e.1.out (pa e.1) e.2).endRecords [e.1] none

section
variable (pa : WaitRecord → Nat) (s : State) (e : WaitRecord × Word)

theorem State.grantedFlag_par : (s.grantedFlag pa e).par = s.par :=
  (SameWorld.endRecords _ _ _).par.trans (State.wroteOut_par _ _ _ _)

theorem State.grantedFlag_mem : (s.grantedFlag pa e).mem = (s.wroteOut e.1.out (pa e.1) e.2).mem :=
  (SameWorld.endRecords _ _ _).mem

theorem OnlyThreads.grantedFlag : OnlyThreads s (s.grantedFlag pa e) :=
  (OnlyThreads.of_objects (by rw [State.wroteOut_kernel])).trans (.endRecords _ _ _)

theorem State.thread?_grantedFlag (u : Nat) : (s.grantedFlag pa e).kernel.thread? u =
    if u = e.1.thread then (s.kernel.thread? e.1.thread).map (Thread.endWait e.1.waitObject) else s.kernel.thread? u := by
  refine (State.thread?_endRecords_singleton _ e.1 none u).trans ?_
  rw [State.wroteOut_kernel]

end

/-- A scan whose output cells are mapped grants its records one after the other. -/
theorem State.grantFlags_eq (pa : WaitRecord → Nat) : ∀ (rs : List (WaitRecord × Word)) (s : State),
    (∀ e ∈ rs, e.1.out = 0#32 ∨ dataAddress s.par e.1.out 4 = .ok (pa e.1)) →
    s.grantFlags rs = .ok (rs.foldl (State.grantedFlag pa) s)
  | [], _, _ => rfl
  | (r, p) :: rs, s, h => by
    obtain ⟨hr, hrs⟩ := List.forall_mem_cons.mp h
    have ih := State.grantFlags_eq pa rs (s.grantedFlag pa (r, p)) fun e he => by
      rw [State.grantedFlag_par]; exact hrs e he
    have hout := State.writeOut_of_ok hr p
    rw [List.foldl_cons, ← ih]
    cases hc : r.cond with
    | bits b mode clear out =>
      have ho : r.out = out := by simp only [WaitRecord.out, hc]
      rw [ho] at hout
      simp only [State.grantFlags, hc, hout]
      rw [State.grantedFlag, ho]
    | need n =>
      have ho : r.out = 0#32 := by simp only [WaitRecord.out, hc]
      simp only [State.grantFlags, hc, State.grantedFlag, ho, State.wroteOut_of_zero]
    | locks n =>
      have ho : r.out = 0#32 := by simp only [WaitRecord.out, hc]
      simp only [State.grantFlags, hc, State.grantedFlag, ho, State.wroteOut_of_zero]

/-- The wait on cell `w` of the thread in slot `u` is over: it is READY, with no wait reason. -/
def State.WaitOver (s : State) (u w : Nat) : Prop :=
  ∃ t, s.kernel.thread? u = some t ∧ t.waitObject = some w ∧ t.state = .ready ∧ t.waitReason = none

namespace State

variable {pa : WaitRecord → Nat} {s : State} {u w : Nat}

/-- A wait that is over stays over: a grant wakes no thread twice, and leaves alone one that waits on another cell. -/
theorem WaitOver.grantedFlag (h : s.WaitOver u w) (e : WaitRecord × Word) : (s.grantedFlag pa e).WaitOver u w := by
  obtain ⟨t, ht, hw, hst, hr⟩ := h
  rw [WaitOver, State.thread?_grantedFlag]
  split
  · rename_i hu
    subst hu
    refine ⟨t.endWait e.1.waitObject, by rw [ht]; rfl, ?_⟩
    by_cases hcell : w = e.1.waitObject
    · subst hcell
      rw [Thread.endWait_of_eq hw]
      exact ⟨hw, by simp [Thread.woken, hst], rfl⟩
    · rw [Thread.endWait_of_ne hw hcell]
      exact ⟨hw, hst, hr⟩
  · exact ⟨t, ht, hw, hst, hr⟩

theorem WaitOver.foldl_grantedFlag : ∀ (rs : List (WaitRecord × Word)) {s : State}, s.WaitOver u w →
    (rs.foldl (State.grantedFlag pa) s).WaitOver u w
  | [], _, h => h
  | e :: rs, _, h => WaitOver.foldl_grantedFlag rs (h.grantedFlag e)

/-- A thread that waits on the cell of a granted record is READY after the grants. -/
theorem waitOver_of_granted {rs : List (WaitRecord × Word)} {t : Thread} {e : WaitRecord × Word} (he : e ∈ rs)
    (ht : s.kernel.thread? e.1.thread = some t) (hw : t.waitObject = some e.1.waitObject) (hst : t.state = .wait) :
    (rs.foldl (State.grantedFlag pa) s).WaitOver e.1.thread e.1.waitObject := by
  induction rs generalizing s with
  | nil => cases he
  | cons d rs ih =>
    have hd := State.thread?_grantedFlag pa s d e.1.thread
    rw [List.foldl_cons]
    by_cases hsame : e.1.thread = d.1.thread ∧ e.1.waitObject = d.1.waitObject
    · obtain ⟨hready, hreason, hcell⟩ := Thread.endWait_of_wait hw hst
      refine WaitOver.foldl_grantedFlag rs ⟨t.endWait e.1.waitObject, ?_, hcell, hready, hreason⟩
      rw [hd, if_pos hsame.1, ← hsame.1, ← hsame.2, ht]
      rfl
    · have hmem : e ∈ rs := (List.mem_cons.mp he).resolve_left fun h => hsame ⟨by rw [h], by rw [h]⟩
      refine ih hmem ?_
      rw [hd]
      split
      · rename_i hu
        rw [← hu, ht, Option.map_some, Thread.endWait_of_ne hw fun h => hsame ⟨hu, h⟩]
      · exact ht

/-- A thread that no granted record names is left alone. -/
theorem thread?_foldl_grantedFlag : ∀ {rs : List (WaitRecord × Word)} {s : State}, (∀ e ∈ rs, e.1.thread ≠ u) →
    (rs.foldl (State.grantedFlag pa) s).kernel.thread? u = s.kernel.thread? u
  | [], _, _ => rfl
  | e :: rs, s, h => by
    obtain ⟨he, hrs⟩ := List.forall_mem_cons.mp h
    rw [List.foldl_cons, thread?_foldl_grantedFlag hrs, State.thread?_grantedFlag, if_neg (Ne.symm he)]

theorem grantedFlag_mem_wf (hm : Memory.wf s.mem = true) (e : WaitRecord × Word) :
    Memory.wf (s.grantedFlag pa e).mem = true := by
  rw [State.grantedFlag_mem]
  exact State.wroteOut_mem_wf _ _ _ _ hm

/-- The grants write to output cells only. -/
theorem read_foldl_grantedFlag {a : Nat} : ∀ {rs : List (WaitRecord × Word)} {s : State}, Memory.wf s.mem = true →
    (∀ e ∈ rs, e.1.out ≠ 0#32 → a < pa e.1 ∨ pa e.1 + 4 ≤ a) →
    Memory.read (rs.foldl (State.grantedFlag pa) s).mem a = Memory.read s.mem a
  | [], _, _, _ => rfl
  | e :: rs, s, hm, h => by
    obtain ⟨he, hrs⟩ := List.forall_mem_cons.mp h
    rw [List.foldl_cons, read_foldl_grantedFlag (grantedFlag_mem_wf hm e) hrs, State.grantedFlag_mem,
      State.read_wroteOut _ _ _ _ hm he]

end State

theorem Memory.word_congr {m n : List Host.Cell} {pa : Nat}
    (h : ∀ k, k < 4 → Memory.read m (pa + k) = Memory.read n (pa + k)) : Memory.word m pa = Memory.word n pa :=
  word_ext_bytes fun k hk => by rw [Memory.byteOfWord_word m pa k hk, Memory.byteOfWord_word n pa k hk, h k hk]

/-- Two granted records whose output cells do not overlap. -/
def CellsApart (pa : WaitRecord → Nat) (e d : WaitRecord × Word) : Prop :=
  e.1.out = 0#32 ∨ d.1.out = 0#32 ∨ pa e.1 + 4 ≤ pa d.1 ∨ pa d.1 + 4 ≤ pa e.1

/-- Output cells that do not overlap hold the pattern that their record saw. -/
theorem State.word_foldl_grantedFlag {pa : WaitRecord → Nat} {rs : List (WaitRecord × Word)} {s : State}
    (hm : Memory.wf s.mem = true) (hp : rs.Pairwise (CellsApart pa)) : ∀ e ∈ rs, e.1.out ≠ 0#32 →
    Memory.word (rs.foldl (State.grantedFlag pa) s).mem (pa e.1) = e.2 := by
  induction rs generalizing s with
  | nil => exact fun _ => nofun
  | cons d rs ih =>
    obtain ⟨hd, hrs⟩ := List.pairwise_cons.mp hp
    have hm' := State.grantedFlag_mem_wf (pa := pa) hm d
    refine List.forall_mem_cons.mpr ⟨fun hout => ?_, ih hm' hrs⟩
    refine (Memory.word_congr (n := (s.grantedFlag pa d).mem) fun k hk => ?_).trans ?_
    · refine State.read_foldl_grantedFlag hm' fun c hc hc0 => ?_
      obtain h | h | h | h := hd c hc
      · exact absurd h hout
      · exact absurd h hc0
      · omega
      · omega
    · rw [State.grantedFlag_mem, State.word_wroteOut _ _ _ _ hm hout]

/-! ## The operations (R335, R336) -/

/-- A wait that matches succeeds at once (R335). -/
theorem State.waitEventFlag_of_fits {s : State} {uid pa : Nat} {x : EventFlag} {bits out : Word} {mode : FlagMode}
    (hf : flagFits x.pattern bits mode) (hout : out = 0#32 ∨ dataAddress s.par out 4 = .ok pa) (clear : Bool) (tp : Word)
    (allow : Bool) : s.waitEventFlag uid x bits mode clear out tp allow =
      .ok ((s.setPayload uid (.eventFlag { x with pattern := flagAfter x.pattern bits clear })).wroteOut out pa x.pattern) := by
  rw [State.waitEventFlag, if_pos ((flagMatches_iff _ _ _).mpr hf)]
  exact State.writeOut_of_ok (by rwa [(SameWorld.setPayload s uid _).par]) x.pattern

/-- Set writes what the scan leaves and grants its records (R336). -/
theorem State.setEventFlag_eq {s : State} {uid : Nat} {x : EventFlag} (hx : s.kernel.eventFlag? uid = some x) (bits : Word)
    (pa : WaitRecord → Nat) (h : ∀ e ∈ (flagScan (x.pattern ||| bits) x.queue).2.2,
      e.1.out = 0#32 ∨ dataAddress s.par e.1.out 4 = .ok (pa e.1)) :
    s.setEventFlag uid x bits = .ok ((flagScan (x.pattern ||| bits) x.queue).2.2.foldl (State.grantedFlag pa)
      (s.setPayload uid (.eventFlag { x with
        pattern := (flagScan (x.pattern ||| bits) x.queue).1, queue := (flagScan (x.pattern ||| bits) x.queue).2.1 }))) := by
  simp only [State.setEventFlag, State.scanEventFlag, State.eventFlag?_setPayload hx, State.setPayload_setPayload]
  exact State.grantFlags_eq pa _ _ fun e he => by
    rw [(SameWorld.setPayload s uid _).par]
    exact h e he

/-- Settles O50: the scan record by record, the wait that matches, and Set and Clear by the payload that they write. -/
theorem eventFlagScanAndWait : Obligations.EventFlagScanAndWait := by
  refine ⟨fun pattern q => ⟨fun x => ?_, (flagScan_sublist q pattern).1, (flagScan_sublist q pattern).2,
    flagScan_bitsWithin q pattern, flagScan_granted q pattern, flagScan_stays q pattern, ?_⟩, fun s x hx harg => ?_,
    fun s uid x hx => ⟨fun pa bits out tp mode clear allow _ hf hm hout => ?_, fun bits => State.eventFlag?_setPayload hx _,
      fun bits pa => ?_⟩⟩
  · rw [← List.count_append, (flagScan_perm q pattern).count_eq]
  · rintro before x after bits mode clear out rfl hc
    obtain ⟨b, m, cl, o, hc', hf, he⟩ | ⟨hno, he⟩ := flagScan_cons_cases (flagScan pattern before).1 x after
    · cases hc.symm.trans hc'
      rw [flagScan_append, he]
      exact ⟨fun _ => ⟨_, _, rfl, rfl, rfl⟩, fun hno => absurd hf hno⟩
    · rw [flagScan_append, he]
      exact ⟨fun hf => absurd hf (hno bits mode clear out hc), fun _ => ⟨_, _, rfl, rfl, rfl⟩⟩
  · simp only [runCall, hostWaitEventFlag, hx, harg, if_true]
  · have hworld := SameWorld.setPayload s uid (.eventFlag { x with pattern := flagAfter x.pattern bits clear })
    refine ⟨_, State.waitEventFlag_of_fits hf hout clear tp allow, ?_, fun u => ?_, ?_, fun h0 => ?_⟩
    · rw [State.wroteOut_kernel]; exact State.eventFlag?_setPayload hx _
    · rw [State.wroteOut_kernel]; exact State.thread?_setPayload (Kernel.view_of_eventFlag hx) rfl u
    · rintro rfl; exact hworld.mem
    · exact State.word_wroteOut _ out pa _ (by rw [hworld.mem]; exact hm) h0
  · intro r hm hcells
    have hworld := SameWorld.setPayload s uid (.eventFlag { x with pattern := r.1, queue := r.2.1 })
    have hthread := State.thread?_setPayload (p := .eventFlag { x with pattern := r.1, queue := r.2.1 })
      (Kernel.view_of_eventFlag hx) rfl
    have hm' : Memory.wf (s.setPayload uid (.eventFlag { x with pattern := r.1, queue := r.2.1 })).mem = true := by
      rw [hworld.mem]; exact hm
    refine ⟨_, State.setEventFlag_eq hx bits pa hcells, ?_, fun e he w hw hcell hst => ?_, fun u hu => ?_, fun a ha => ?_,
      fun hp => State.word_foldl_grantedFlag hm' hp⟩
    · exact ((OnlyThreads.foldl _ (OnlyThreads.grantedFlag pa) r.2.2 _).eventFlag?_eq uid).trans
        (State.eventFlag?_setPayload hx _)
    · obtain ⟨t, ht, -, hready, hreason⟩ := State.waitOver_of_granted (pa := pa) he ((hthread e.1.thread).trans hw) hcell hst
      exact ⟨t, ht, hready, hreason⟩
    · exact (State.thread?_foldl_grantedFlag hu).trans (hthread u)
    · rw [State.read_foldl_grantedFlag hm' ha, hworld.mem]

end Sys2Proof.Machine
end

section
/-! SUPPORT. Operations on every wait queue at once (R312, R323): a wait timeout, with the wake scan behind it, and a priority
change. -/

namespace Sys2Proof.Machine

/-! ## The payload of every object -/

theorem Kernel.lookup_mapPayloads (k : Kernel) (f : Payload → Payload) (v : Nat) :
    (k.mapPayloads f).lookup v = (k.lookup v).map fun o => { o with payload := f o.payload } := by
  unfold Kernel.lookup Kernel.mapPayloads
  simp only
  induction k.objects with
  | nil => rfl
  | cons c rest ih =>
    obtain ⟨a, o⟩ := c
    by_cases h : a = v
    · subst h; simp
    · simpa [beq_false_of_ne h] using ih

/-- A change of wait queues changes no thread. -/
theorem Kernel.thread?_mapPayloads (k : Kernel) {f : Payload → Payload} (hf : ∀ x, ∃ q, f x = x.withQueue q) (v : Nat) :
    (k.mapPayloads f).thread? v = k.thread? v := by
  unfold Kernel.thread?
  rw [Kernel.lookup_mapPayloads]
  cases k.lookup v with
  | none => rfl
  | some o =>
    obtain ⟨n, x⟩ := o
    obtain ⟨q, hq⟩ := hf x
    simp only [Option.map_some, hq]
    cases x <;> rfl

theorem Payload.withQueue_queue (x : Payload) : x.withQueue x.queue = x := by cases x <;> rfl

/-- The wait queue after a change that leaves the empty queue empty. -/
theorem Payload.queue_withQueue (x : Payload) {f : List WaitRecord → List WaitRecord} (hf : f [] = []) :
    (x.withQueue (f x.queue)).queue = f x.queue := by
  cases x <;> first | rfl | exact hf.symm

/-! ## The end of several waits (R324) -/

/-- No wait queue holds a record of a wait on cell `w`. -/
def Kernel.NoRecord (k : Kernel) (w : Nat) : Prop :=
  ∀ v o, k.lookup v = some o → ∀ r ∈ o.payload.queue, r.waitObject ≠ w

theorem Kernel.noRecord_dropRecords (k : Kernel) (w : Nat) : (k.dropRecords fun r => r.waitObject == w).NoRecord w := by
  intro v o ho r hr
  obtain ⟨o', -, rfl⟩ := Option.map_eq_some_iff.mp ((Kernel.lookup_mapPayloads k _ v).symm.trans ho)
  have hq := o'.payload.queue_withQueue (f := List.filter fun r => !(r.waitObject == w)) rfl
  have hmem := hq ▸ hr
  simpa using (List.mem_filter.mp hmem).2

section
variable {s : State} {r : Option Word}

/-- The timers of the waits go, and no event comes. -/
theorem State.endRecords_events : ∀ {rs : List WaitRecord} {s : State},
    (s.endRecords rs r).kernel.events ⊆ s.kernel.events
  | [], _ => List.Subset.refl _
  | e :: rs, s => by
    rw [State.endRecords_cons]
    refine List.Subset.trans State.endRecords_events ?_
    rw [State.endWait_events]
    cases e.timer with
    | none => exact List.Subset.refl _
    | some h => exact List.filter_subset_self _

theorem State.mem_ready_endRecords {v : Nat} {p : Fin 128} : ∀ {rs : List WaitRecord} {s : State}, v ∈ s.kernel.ready[p] →
    v ∈ (s.endRecords rs r).kernel.ready[p]
  | [], _, h => h
  | e :: rs, s, h => by
    rw [State.endRecords_cons]
    refine State.mem_ready_endRecords (State.mem_ready_endWait _ _ _ _ ?_)
    cases e.timer <;> exact h

/-- The end of waits on other cells leaves a cell alone. -/
theorem State.waitObject?_endRecords {w : Nat} : ∀ {rs : List WaitRecord} {s : State}, (∀ e ∈ rs, e.waitObject ≠ w) →
    (s.endRecords rs r).kernel.waitObject? w = s.kernel.waitObject? w
  | [], _, _ => rfl
  | e :: rs, s, h => by
    obtain ⟨he, hrs⟩ := List.forall_mem_cons.mp h
    rw [State.endRecords_cons, State.waitObject?_endRecords hrs, State.waitObject?_endWait, if_neg (Ne.symm he)]
    cases e.timer <;> rfl

/-- The end of waits on other cells leaves a thread alone. -/
theorem State.thread?_endRecords {u w : Nat} {t : Thread} (hw : t.waitObject = some w) : ∀ {rs : List WaitRecord} {s : State},
    (∀ e ∈ rs, e.waitObject ≠ w) → s.kernel.thread? u = some t → (s.endRecords rs r).kernel.thread? u = some t
  | [], _, _, ht => ht
  | e :: rs, s, h, ht => by
    obtain ⟨he, hrs⟩ := List.forall_mem_cons.mp h
    rw [State.endRecords_cons]
    refine State.thread?_endRecords hw hrs ?_
    simp only [State.thread?_endWait, State.thread?_unscheduleTimer]
    split
    · rename_i hu
      rw [← hu, ht, Option.map_some, Thread.endWait_of_ne hw (Ne.symm he)]
    · exact ht

end

/-! ## The wake scan behind a timeout (R323) -/

/-- What the wake scan of a semaphore or of a mutex does: nothing, or a write of the primitive with a part of its queue, after
which the waits of another part end. -/
inductive Scans (s : State) (p : Nat) : State → Prop where
  | idle : Scans s p s
  | grant {o : KernelObject} {x : Payload} {rs : List WaitRecord} (hlookup : s.kernel.lookup p = some o)
      (hold : s.kernel.view p = none) (hnew : x.view = none) (hqueue : x.queue ⊆ o.payload.queue)
      (hrs : rs ⊆ o.payload.queue) : Scans s p ((s.setPayload p x).endRecords rs none)

theorem scans_scanSemaphore (s : State) (p : Nat) : Scans s p (s.scanSemaphore p) := by
  cases hx : s.kernel.semaphore? p with
  | none => simp only [State.scanSemaphore, hx]; exact .idle
  | some x =>
    obtain ⟨n, hl⟩ := Kernel.lookup_of_semaphore hx
    simp only [State.scanSemaphore, hx]
    exact .grant hl (Kernel.view_of_semaphore hx) rfl (semaphoreScan_stay_sublist _ _ _).subset
      (semaphoreScan_granted_sublist _ _ _).subset

theorem scans_grantMutex (s : State) (p : Nat) : Scans s p (s.grantMutex p) := by
  cases hx : s.kernel.mutex? p with
  | none => simp only [State.grantMutex, hx]; exact .idle
  | some x =>
    obtain ⟨n, hl⟩ := Kernel.lookup_of_mutex hx
    by_cases hfree : x.lockCount = 0
    · cases hq : x.queue with
      | nil =>
        rw [State.grantMutex_of_nil hx hfree hq]
        exact .grant (rs := []) hl (Kernel.view_of_mutex hx) rfl (List.Subset.refl _) (List.nil_subset _)
      | cons r rest =>
        rw [State.grantMutex_of_cons hx hfree hq]
        refine .grant hl (Kernel.view_of_mutex hx) rfl ?_ ?_
        · show rest ⊆ x.queue
          rw [hq]
          exact List.subset_cons_self r rest
        · show [r] ⊆ x.queue
          rw [hq]
          exact List.cons_subset_cons r (List.nil_subset rest)
    · rw [State.grantMutex_of_held hx hfree]; exact .idle

/-- The wake scan of the primitive that a semaphore's or a mutex's wait names. -/
theorem scans_scanPrimitive (s : State) {reason : WaitReason} {p : Nat} (h : reason = .semaphore p ∨ reason = .mutex p) :
    ∃ t, s.scanPrimitive reason = .ok t ∧ Scans s p t ∧ SameWorld s t := by
  obtain rfl | rfl := h
  · exact ⟨_, rfl, scans_scanSemaphore s p, .scanSemaphore s p⟩
  · exact ⟨_, rfl, scans_grantMutex s p, .grantMutex s p⟩

namespace Scans

variable {s t : State} {p w : Nat}

theorem events (h : Scans s p t) : t.kernel.events ⊆ s.kernel.events := by
  cases h with
  | idle => exact List.Subset.refl _
  | grant => exact List.Subset.trans State.endRecords_events (by rw [State.setPayload_events]; exact List.Subset.refl _)

theorem mem_ready (h : Scans s p t) {v : Nat} {q : Fin 128} (hv : v ∈ s.kernel.ready[q]) : v ∈ t.kernel.ready[q] := by
  cases h with
  | idle => exact hv
  | grant => exact State.mem_ready_endRecords (by rw [State.setPayload_ready]; exact hv)

theorem waitObject? (h : Scans s p t) (hw : s.kernel.NoRecord w) : t.kernel.waitObject? w = s.kernel.waitObject? w := by
  cases h with
  | idle => rfl
  | grant hl _ _ _ hrs =>
    rw [State.waitObject?_endRecords fun e he => hw p _ hl e (hrs he)]
    simp only [Kernel.waitObject?, State.setPayload_waitObjects]

theorem thread? (h : Scans s p t) (hw : s.kernel.NoRecord w) {u : Nat} {th : Thread} (ht : s.kernel.thread? u = some th)
    (hcell : th.waitObject = some w) : t.kernel.thread? u = some th := by
  cases h with
  | idle => exact ht
  | grant hl hold hnew _ hrs =>
    refine State.thread?_endRecords hcell (fun e he => hw p _ hl e (hrs he)) ?_
    rw [State.thread?_setPayload hold hnew, ht]

theorem noRecord (h : Scans s p t) (hw : s.kernel.NoRecord w) : t.kernel.NoRecord w := by
  cases h with
  | idle => exact hw
  | grant hl _ _ hqueue _ =>
    intro v o ho r hr
    obtain hnil | ho := (OnlyThreads.endRecords _ _ _).queue ho
    · rw [hnil] at hr; cases hr
    · by_cases hv : v = p
      · subst hv
        cases (State.lookup_setPayload_same hl _).symm.trans ho
        exact hw v _ hl r (hqueue hr)
      · exact hw v o ((State.lookup_setPayload_other _ hv).symm.trans ho) r hr

end Scans

/-! ## A wait timeout (R323) -/

/-- The state after a timeout, before the wake scan: the cell is zeroed, the wait ends, and its record leaves its queue. -/
def State.timedOut (s : State) (u w pa : Nat) : State :=
  ((s.storeBytes pa (wordBytes 0#32)).endWait u w (some s.par.status.timeout)).withKernel fun k =>
    k.dropRecords fun r => r.waitObject == w

theorem State.fireTimeout_eq {s : State} {u w pa : Nat} {cell : Word} {reason : WaitReason}
    (h : dataAddress s.par cell 4 = .ok pa) :
    s.fireTimeout u w cell reason = (s.timedOut u w pa).scanPrimitive reason := by
  simp only [State.fireTimeout, State.storeChecked_of_ok (bs := wordBytes 0#32) h]
  rfl

theorem State.timedOut_mem (s : State) (u w pa : Nat) : (s.timedOut u w pa).mem = (s.storeBytes pa (wordBytes 0#32)).mem :=
  (SameWorld.endWait _ u w _).mem

section
variable {s : State} {u w pa : Nat} {t : Thread} (ht : s.kernel.thread? u = some t) (hw : t.waitObject = some w)
include ht hw

/-- The thread is woken (R321). -/
theorem State.thread?_timedOut : (s.timedOut u w pa).kernel.thread? u = some t.woken := by
  refine (Kernel.thread?_mapPayloads _ (fun x => ⟨_, rfl⟩) u).trans ?_
  rw [State.thread?_endWait, if_pos rfl, State.storeBytes_kernel, ht, Option.map_some, Thread.endWait_of_eq hw]

theorem State.mem_ready_timedOut (hst : t.state = .wait) : u ∈ (s.timedOut u w pa).kernel.ready[t.priority] :=
  State.mem_ready_endWait_self (s.storeBytes pa (wordBytes 0#32)) u w _ ht hw hst

end

theorem State.waitObject?_timedOut {s : State} {w : Nat} {o : WaitObject} (ho : s.kernel.waitObject? w = some o) (u pa : Nat) :
    (s.timedOut u w pa).kernel.waitObject? w = some { ended := true, result := some s.par.status.timeout } := by
  refine (State.waitObject?_endWait _ u w _ w).trans ?_
  rw [if_pos rfl, State.storeBytes_kernel, ho]
  rfl

theorem State.timedOut_events (s : State) (u w pa : Nat) : (s.timedOut u w pa).kernel.events = s.kernel.events :=
  State.endWait_events _ u w _

/-- A timeout that fires leaves the wake scan of the state after it, and requests the scheduler (R298, R323). -/
theorem State.fireEvent_timeout {s : State} {e : Event} {u w p pa : Nat} {cell : Word} {reason : WaitReason}
    (haction : e.action = .waitTimeout u w cell reason) (hreason : reason = .semaphore p ∨ reason = .mutex p)
    (hpa : dataAddress s.par cell 4 = .ok pa) :
    ∃ t, s.fireEvent e = t.request true ∧ Scans ((s.unschedule e.handle).timedOut u w pa) p t ∧
      SameWorld ((s.unschedule e.handle).timedOut u w pa) t := by
  obtain ⟨t, hscan, hs, hworld⟩ := scans_scanPrimitive ((s.unschedule e.handle).timedOut u w pa) hreason
  refine ⟨t, ?_, hs, hworld⟩
  simp only [State.fireEvent, haction, State.fire, State.fireTimeout_eq (s := s.unschedule e.handle) hpa, hscan]

/-- Settles O51: the state after the timeout, and what the wake scan leaves of it. -/
theorem timeoutFires : Obligations.TimeoutFires := by
  intro s e u w p pa cell reason th o haction hreason hm hth hcell ho hpa
  obtain ⟨t, hfire, hs, hworld⟩ := State.fireEvent_timeout haction hreason hpa
  have hmem : (s.fireEvent e).mem = ((s.unschedule e.handle).storeBytes pa (wordBytes 0#32)).mem := by
    rw [hfire, State.request_mem, hworld.mem, State.timedOut_mem]
  have hno : ((s.unschedule e.handle).timedOut u w pa).kernel.NoRecord w := Kernel.noRecord_dropRecords _ w
  have hwoken := State.thread?_timedOut (s := s.unschedule e.handle) (pa := pa) hth hcell
  refine ⟨fun d hd => ?_, fun k hk => ?_, fun a ha => ?_, ?_, ?_, ⟨th.woken, ?_, rfl, rfl, fun hst => ⟨?_, ?_⟩, fun hst => ?_⟩,
    ?_⟩
  · rw [hfire] at hd
    have hd : d ∈ (s.unschedule e.handle).kernel.events := State.timedOut_events _ u w pa ▸ hs.events hd
    simpa using (List.mem_filter.mp hd).2
  · rw [hmem, read_storeBytes_word (s := s.unschedule e.handle) hm pa 0#32 hk]
    simp [byteOfWord]
  · rw [hmem]
    exact Memory.read_writeList_outside s.mem pa a _ hm ha
  · rw [hfire]
    exact (hs.waitObject? hno).trans (State.waitObject?_timedOut (s := s.unschedule e.handle) ho u pa)
  · rw [hfire]
    exact hs.noRecord hno
  · rw [hfire]
    exact hs.thread? hno hwoken hcell
  · simp [Thread.woken, hst]
  · rw [hfire]
    exact hs.mem_ready (State.mem_ready_timedOut (s := s.unschedule e.handle) (t := th) hth hcell hst)
  · simp [Thread.woken, hst]
  · rw [hfire]
    exact Bool.or_true _

/-! ## Sorting a queue again (R312, R325) -/

/-- Inserting one record after the other sorts them. -/
theorem foldl_insertByPriority_perm (prio : Nat → Nat) : ∀ q acc : List WaitRecord,
    (q.foldl (fun q r => insertByPriority prio r q) acc).Perm (acc ++ q)
  | [], acc => by rw [List.append_nil]; exact .refl _
  | r :: q, acc =>
    (foldl_insertByPriority_perm prio q _).trans
      (((insertByPriority_perm prio r acc).append_right q).trans List.perm_middle.symm)

theorem sortedBy_foldl_insertByPriority {prio : Nat → Nat} : ∀ (q : List WaitRecord) {acc : List WaitRecord},
    SortedBy prio acc → SortedBy prio (q.foldl (fun q r => insertByPriority prio r q) acc)
  | [], _, h => h
  | _ :: q, _, h => sortedBy_foldl_insertByPriority q (sortedBy_insertByPriority h)

/-- A primitive whose queue holds a record of thread `u` is sorted again, where it is ordered by priority (R312). -/
def Payload.resortFor (u : Nat) (prio : Nat → Nat) (x : Payload) : Payload :=
  if x.queue.any fun r => r.thread == u then x.resort prio else x

theorem Payload.queue_resort (prio : Nat → Nat) (x : Payload) (h : x.priorityOrdered = true) :
    (x.resort prio).queue = x.queue.foldl (fun q r => insertByPriority prio r q) [] := by
  rw [Payload.resort, if_pos h]
  exact x.queue_withQueue (f := fun q => q.foldl (fun q r => insertByPriority prio r q) []) rfl

section
variable (u : Nat) (prio : Nat → Nat) (x : Payload)

/-- Sorting changes nothing of a payload but its queue. -/
theorem Payload.resortFor_withQueue : ∃ q, x.resortFor u prio = x.withQueue q := by
  unfold Payload.resortFor Payload.resort
  split
  · split
    · exact ⟨_, rfl⟩
    · exact ⟨_, x.withQueue_queue.symm⟩
  · exact ⟨_, x.withQueue_queue.symm⟩

theorem Payload.resortFor_perm : (x.resortFor u prio).queue.Perm x.queue := by
  unfold Payload.resortFor
  split
  · by_cases h : x.priorityOrdered = true
    · rw [Payload.queue_resort prio x h]
      exact foldl_insertByPriority_perm prio x.queue []
    · rw [Payload.resort, if_neg h]
  · exact .refl _

theorem Payload.resortFor_sorted (h : x.priorityOrdered = true) (hu : ∃ r ∈ x.queue, r.thread = u) :
    SortedBy prio (x.resortFor u prio).queue := by
  rw [Payload.resortFor, if_pos (by simpa using hu), Payload.queue_resort prio x h]
  exact sortedBy_foldl_insertByPriority x.queue .nil

end

/-! ## A priority change (R312) -/

/-- Thread `u`, so far `t`, with priority `p` and in its new level, before the wait queues are sorted (R312). -/
def State.reprioritised (s : State) (u : Nat) (t : Thread) (p : Fin 128) : State :=
  if t.state = .ready then
    ((s.withKernel fun k => k.dequeue u t.priority).updThread u fun t => { t with priority := p }).withKernel fun k =>
      k.enqueueTail u p
  else s.updThread u fun t => { t with priority := p }

theorem State.changePriority_eq {s : State} {u : Nat} {t : Thread} (ht : s.kernel.thread? u = some t) (p : Fin 128) :
    s.changePriority u t p =
      (s.reprioritised u t p).withKernel fun k => k.mapPayloads (Payload.resortFor u k.priorityOf) := by
  by_cases hst : t.state = .ready <;>
    simp only [State.changePriority, State.unready, State.reprioritised, ht, hst, if_true, if_false] <;> rfl

section
variable (s : State) (u : Nat) (t : Thread) (p q : Fin 128)

theorem State.lookup_reprioritised_other {v : Nat} (hv : v ≠ u) :
    (s.reprioritised u t p).kernel.lookup v = s.kernel.lookup v := by
  unfold State.reprioritised
  split
  · exact State.updThread_lookup_other (s.withKernel fun k => k.dequeue u t.priority) u v _ hv
  · exact State.updThread_lookup_other s u v _ hv

theorem State.thread?_reprioritised {s : State} {u : Nat} {t : Thread} (ht : s.kernel.thread? u = some t) (p : Fin 128) :
    (s.reprioritised u t p).kernel.thread? u = some { t with priority := p } := by
  unfold State.reprioritised
  split
  · exact State.updThread_thread (s.withKernel fun k => k.dequeue u t.priority) u t (fun t => { t with priority := p }) ht
  · exact State.updThread_thread s u t (fun t => { t with priority := p }) ht

/-- A READY thread leaves its level for the tail of the new one. -/
theorem State.ready_reprioritised_of_ready (hst : t.state = .ready) : (s.reprioritised u t p).kernel.ready[q] =
    if q = p then (s.kernel.dequeue u t.priority).ready[p] ++ [u] else (s.kernel.dequeue u t.priority).ready[q] := by
  have hready := State.updThread_ready (s.withKernel fun k => k.dequeue u t.priority) u fun t => { t with priority := p }
  have he : s.reprioritised u t p = _ := if_pos hst
  rw [he]
  refine (Kernel.ready_enqueueTail _ u q p).trans ?_
  simp only [hready, State.withKernel_kernel]

theorem State.ready_reprioritised_of_not_ready (hst : t.state ≠ .ready) :
    (s.reprioritised u t p).kernel.ready[q] = s.kernel.ready[q] := by
  have he : s.reprioritised u t p = _ := if_neg hst
  simp only [he, State.updThread_ready]

/-- A level keeps every other thread, in order. -/
theorem Kernel.filter_ready_dequeue (k : Kernel) :
    ((k.dequeue u p).ready[q]).filter (fun v => v != u) = k.ready[q].filter fun v => v != u := by
  rw [Kernel.ready_dequeue]
  split
  · rename_i h
    rw [h, List.filter_filter]
    simp only [Bool.and_self]
  · rfl

end

theorem Kernel.priorityOf_congr {k k' : Kernel} (h : ∀ v, k'.thread? v = k.thread? v) : k'.priorityOf = k.priorityOf := by
  funext v
  simp only [Kernel.priorityOf, h]

/-- Settles O52: the change of the thread and its levels, and the wait queues that are sorted after it. -/
theorem priorityChange : Obligations.PriorityChange := by
  intro s u t p hwf ht
  have hbut := SchedBut.dequeue hwf ht
  have hout : ∀ q : Fin 128, u ∉ (s.kernel.dequeue u t.priority).ready[q] := fun q h => ((hbut.ready u q).mp h).1 rfl
  have hthread := (s.reprioritised u t p).kernel.thread?_mapPayloads
    (Payload.resortFor_withQueue u (s.reprioritised u t p).kernel.priorityOf)
  have hlevel : ∀ q, t.state = .ready → _ := fun q => State.ready_reprioritised_of_ready s u t p q
  rw [State.changePriority_eq ht p]
  intro k
  refine ⟨(hthread u).trans (State.thread?_reprioritised ht p), fun v hv => (hthread v).trans
    (Kernel.thread?_congr (State.lookup_reprioritised_other s u t p hv)), fun hst => ⟨?_, fun q hq => ?_, fun q => ?_⟩,
    fun hst q => State.ready_reprioritised_of_not_ready s u t p q hst, fun v o ho => ?_⟩
  · exact ⟨_, (hlevel p hst).trans (if_pos rfl), hout p⟩
  · exact fun h => hout q (((hlevel q hst).trans (if_neg hq)) ▸ h)
  · refine (congrArg _ (hlevel q hst)).trans ((Eq.trans ?_ (Kernel.filter_ready_dequeue u t.priority q s.kernel)))
    split
    · rename_i hq
      subst hq
      simp
    · rfl
  · have hprio : k.priorityOf = (s.reprioritised u t p).kernel.priorityOf := Kernel.priorityOf_congr hthread
    have hl := Kernel.lookup_mapPayloads (s.reprioritised u t p).kernel
      (Payload.resortFor u (s.reprioritised u t p).kernel.priorityOf) v
    by_cases hv : v = u
    · subst hv
      obtain ⟨n, hn⟩ := Kernel.lookup_of_thread _ _ _ (State.thread?_reprioritised ht p)
      rw [hn] at hl
      have hnil : o.payload.queue = [] := Kernel.queue_of_thread (by rw [ht]; rfl) ho
      exact ⟨_, hl, by rw [hnil]; exact .refl _, fun _ ⟨r, hr, _⟩ => by rw [hnil] at hr; cases hr⟩
    · rw [State.lookup_reprioritised_other s u t p hv, ho] at hl
      rw [hprio]
      exact ⟨_, hl, Payload.resortFor_perm u _ o.payload, Payload.resortFor_sorted u _ o.payload⟩

end Sys2Proof.Machine
end

section
/-! SUPPORT. GPU commands (R359 to R362, R400): what drawing leaves alone, what a command does to `reg`, and what each flow
command does to the executing list. -/

namespace Sys2Proof.Machine

/-! ## What drawing leaves alone (R400) -/

/-- `t` is `s` after drawing: memory, the texture cache and the counter of draws may differ, and nothing else. -/
def Painted (s t : State) : Prop :=
  ∃ m c n, t = { s with mem := m, gpu := { s.gpu with texCache := c }, draws := n }

namespace Painted

theorem refl (s : State) : Painted s s := ⟨s.mem, s.gpu.texCache, s.draws, rfl⟩

theorem trans {s t u : State} (h : Painted s t) (k : Painted t u) : Painted s u := by
  obtain ⟨_, _, _, rfl⟩ := h
  obtain ⟨m, c, n, rfl⟩ := k
  exact ⟨m, c, n, rfl⟩

theorem foldl {α : Type} (f : State → α → State) (hf : ∀ s a, Painted s (f s a)) :
    ∀ (l : List α) (s : State), Painted s (l.foldl f s)
  | [], s => refl s
  | a :: l, s => (hf s a).trans (foldl f hf l (f s a))

section
variable {s t : State} (h : Painted s t)
include h

theorem par : t.par = s.par := by obtain ⟨_, _, _, rfl⟩ := h; rfl
theorem cpu : t.cpu = s.cpu := by obtain ⟨_, _, _, rfl⟩ := h; rfl
theorem run : t.run = s.run := by obtain ⟨_, _, _, rfl⟩ := h; rfl
theorem kernel : t.kernel = s.kernel := by obtain ⟨_, _, _, rfl⟩ := h; rfl
theorem reg : t.gpu.reg = s.gpu.reg := by obtain ⟨_, _, _, rfl⟩ := h; rfl
end

theorem geWriteByte (s : State) (a : Word) (b : Byte) : Painted s (s.geWriteByte a b) := by
  unfold State.geWriteByte
  split
  · exact refl s
  · exact ⟨_, _, _, rfl⟩

theorem geWrite : ∀ (bs : List Byte) (s : State) (a : Word), Painted s (s.geWrite a bs)
  | [], s, _ => refl s
  | b :: bs, s, a => (geWriteByte s a b).trans (geWrite bs _ _)

theorem writePixel (s : State) (px py : Nat) (v : Word) : Painted s (s.writePixel px py v) := geWrite _ s _

theorem writeDepth (s : State) (px py : Nat) (z : Int) : Painted s (s.writeDepth px py z) := geWrite _ s _

theorem writeFragment (s : State) (px py : Nat) (z : Int) (c : Rgba) : Painted s (s.writeFragment px py z c) := by
  unfold State.writeFragment
  simp only
  split
  · exact (writePixel s px py _).trans (writeDepth _ _ _ _)
  · exact writePixel s px py _

theorem clearColour (s : State) (f : Fragment) : Painted s (s.clearColour f) := by
  unfold State.clearColour
  split
  · exact refl s
  · exact writePixel s _ _ _

theorem clearFragment (s : State) (through : Bool) (f : Fragment) : Painted s (s.clearFragment through f) := by
  unfold State.clearFragment
  split
  · exact (clearColour s f).trans (writeDepth _ _ _ _)
  · exact clearColour s f

theorem shade (s : State) (d : DrawContext) (f : Fragment) : Painted s (s.shade d f) := by
  unfold State.shade
  simp only
  split
  · exact refl s
  split
  · exact clearFragment s _ f
  split
  · exact refl s
  split
  · exact refl s
  split
  · exact refl s
  · exact writeFragment s _ _ _ _

theorem drawPrimitive (d : DrawContext) (v : Nat → GeVertex) (seed : Nat) (s : State) (k : Nat) (p : Primitive) :
    Painted s (s.drawPrimitive d v seed k p) :=
  foldl (fun (s : State) (f : Fragment) => s.shade d f) (fun s f => shade s d f) _ s

theorem drawAll (d : DrawContext) (v : Nat → GeVertex) (seed : Nat) :
    ∀ (ps : List Primitive) (s : State) (k : Nat), Painted s (State.drawAll d v seed s k ps)
  | [], s, _ => refl s
  | p :: ps, s, k => (drawPrimitive d v seed s k p).trans (drawAll d v seed ps _ _)

theorem cacheTexture (s : State) : Painted s { s with gpu := s.gpu.cacheTexture s.par } := by
  unfold Gpu.cacheTexture
  split
  · exact ⟨_, _, _, rfl⟩
  · exact refl s

theorem draw (s : State) (through : Bool) (type count : Nat) (vertex : Nat → GeVertex) :
    Painted s (s.draw through type count vertex) :=
  ((cacheTexture s).trans (drawAll _ _ _ _ _ _)).trans ⟨_, _, _, rfl⟩

end Painted

/-! ## What a command leaves alone (R400) -/

/-- `t` has the CPU, the run status and the kernel of `s`. -/
structure SameHost (s t : State) : Prop where
  cpu : t.cpu = s.cpu
  run : t.run = s.run
  kernel : t.kernel = s.kernel

theorem Painted.sameHost {s t : State} (h : Painted s t) : SameHost s t := ⟨h.cpu, h.run, h.kernel⟩

namespace SameHost

theorem refl (s : State) : SameHost s s := ⟨rfl, rfl, rfl⟩

theorem trans {s t u : State} (h : SameHost s t) (k : SameHost t u) : SameHost s u :=
  ⟨k.cpu.trans h.cpu, k.run.trans h.run, k.kernel.trans h.kernel⟩

theorem setGpu (s : State) (g : Gpu) : SameHost s { s with gpu := g } := ⟨rfl, rfl, rfl⟩

theorem prim (s : State) (p : BitVec 24) : SameHost s (s.prim p) := by
  unfold State.prim
  simp only
  split
  · exact refl s
  · exact (Painted.draw s _ _ _ _).sameHost.trans (setGpu _ _)

theorem command (s : State) (id : Nat) (l : GeList) (cmd : BitVec 8) (p : BitVec 24) : SameHost s (s.command id l cmd p) := by
  unfold State.command
  simp only
  split
  · exact (setGpu s _).trans (prim _ _)
  · exact setGpu s _

theorem geOperation (s : State) (id : Nat) (o : GeOp) : SameHost s (s.geOperation id o) := by
  cases o with
  | configure g => exact setGpu s _
  | flow current callStack ended finished =>
    unfold State.geOperation
    simp only
    split
    · exact refl s
    · exact setGpu s _
  | command cmd p =>
    unfold State.geOperation
    simp only
    split
    · exact refl s
    · exact command s _ _ _ _
  | draw through type vs => exact (Painted.draw s _ _ _ _).sameHost
  | write a bs => exact (Painted.geWrite bs s a).sameHost

theorem geOperations (id : Nat) : ∀ (os : List GeOp) (s : State), SameHost s (s.geOperations id os)
  | [], s => refl s
  | o :: os, s => (geOperation s id o).trans (geOperations id os _)

theorem executeCommand (s : State) (id : Nat) (l : GeList) (w : Word) : SameHost s (s.executeCommand id l w) := by
  unfold State.executeCommand
  simp only
  split
  · exact command s _ _ _ _
  · exact (setGpu s _).trans (geOperations id _ _)

end SameHost

/-! ## `reg` (R359) -/

theorem Gpu.setReg_reg (g : Gpu) (cmd : BitVec 8) (p : BitVec 24) (n : Fin 256) :
    (g.setReg cmd p).reg[n] = if n.val = cmd.toNat then p else g.reg[n] := by
  simp only [Gpu.setReg, Fin.getElem_fin, Vector.getElem_set, eq_comm]

theorem Gpu.loadClut_reg (g : Gpu) (p : Params) (m : List Host.Cell) (n : Nat) : (g.loadClut p m n).reg = g.reg := by
  simp only [Gpu.loadClut]

/-- No action writes `reg`: the command decoder has done so already. -/
theorem Gpu.action_reg (g : Gpu) (par : Params) (m : List Host.Cell) (cmd : BitVec 8) (p : BitVec 24) :
    (g.action par m cmd p).reg = g.reg := by
  unfold Gpu.action
  split
  case h_10 => exact Gpu.loadClut_reg _ _ _ _
  all_goals (try split) <;> rfl

theorem Gpu.flow_reg (g : Gpu) (depth : Nat) (l : GeList) (cmd : BitVec 8) (p : BitVec 24) :
    (g.flow depth l cmd p).1.reg = g.reg := by
  unfold Gpu.flow
  split <;> (try split) <;> rfl

theorem Gpu.advanceAddresses_reg (g : Gpu) (f : VertexFormat) (count : Nat) : (g.advanceAddresses f count).reg = g.reg := by
  unfold Gpu.advanceAddresses
  split <;> rfl

theorem State.prim_reg (s : State) (p : BitVec 24) : (s.prim p).gpu.reg = s.gpu.reg := by
  unfold State.prim
  simp only
  split
  · rfl
  · exact (Gpu.advanceAddresses_reg _ _ _).trans (Painted.draw s _ _ _ _).reg

/-! ## One command -/

/-- The GPU after a command of R362 but before PRIM's drawing. -/
def State.commandGpu (s : State) (id : Nat) (l : GeList) (cmd : BitVec 8) (p : BitVec 24) : Gpu :=
  let r := ((s.gpu.setReg cmd p).action s.par s.mem cmd p).flow s.par.geStackDepth l cmd p
  r.1.setList id r.2

theorem State.command_eq (s : State) (id : Nat) (l : GeList) (cmd : BitVec 8) (p : BitVec 24) :
    s.command id l cmd p =
      if cmd = 0x04#8 then { s with gpu := s.commandGpu id l cmd p }.prim p else { s with gpu := s.commandGpu id l cmd p } :=
  rfl

theorem State.executeCommand_of_none {s : State} {w : Word} (h : geOther s.par w = none) (id : Nat) (l : GeList) :
    s.executeCommand id l w = s.command id l (geCommand s.par w).1 (geCommand s.par w).2 := by
  simp only [State.executeCommand, h]

theorem State.commandGpu_reg (s : State) (id : Nat) (l : GeList) (cmd : BitVec 8) (p : BitVec 24) :
    (s.commandGpu id l cmd p).reg = (s.gpu.setReg cmd p).reg :=
  (Gpu.flow_reg _ _ _ _ _).trans (Gpu.action_reg _ _ _ _ _)

/-- A command writes `reg` once, at its own number. -/
theorem State.command_reg (s : State) (id : Nat) (l : GeList) (cmd : BitVec 8) (p : BitVec 24) :
    (s.command id l cmd p).gpu.reg = (s.gpu.setReg cmd p).reg := by
  rw [State.command_eq]
  split
  · exact (State.prim_reg _ _).trans (State.commandGpu_reg s id l cmd p)
  · exact State.commandGpu_reg s id l cmd p

/-- The commands with an action on the GPU's own state. -/
def ownCommands : List Nat := [0x01, 0x02, 0x13, 0x3A, 0x3B, 0x3C, 0x3D, 0x3E, 0x3F, 0xC4, 0xCB]

/-- The commands with an action on the executing list or of it. -/
def flowCommands : List Nat := [0x08, 0x0A, 0x0B, 0x0C, 0x0F, 0x14]

theorem Gpu.action_of_not_mem {cmd : BitVec 8} (h : cmd.toNat ∉ ownCommands) (g : Gpu) (par : Params)
    (m : List Host.Cell) (p : BitVec 24) : g.action par m cmd p = g := by
  unfold Gpu.action
  split <;> simp [ownCommands] at h ⊢

theorem Gpu.flow_of_not_mem {cmd : BitVec 8} (h : cmd.toNat ∉ flowCommands) (g : Gpu) (depth : Nat) (l : GeList)
    (p : BitVec 24) : g.flow depth l cmd p = (g, l) := by
  unfold Gpu.flow
  split <;> simp [flowCommands] at h ⊢

/-- A command without an action writes its `reg` entry and nothing else (R361). -/
theorem State.command_of_not_mem {cmd : BitVec 8} (hprim : cmd ≠ 0x04#8) (hown : cmd.toNat ∉ ownCommands)
    (hflow : cmd.toNat ∉ flowCommands) (s : State) (id : Nat) (l : GeList) (p : BitVec 24) :
    s.command id l cmd p = { s with gpu := (s.gpu.setReg cmd p).setList id l } := by
  rw [State.command_eq, if_neg hprim, State.commandGpu, Gpu.action_of_not_mem hown, Gpu.flow_of_not_mem hflow]

/-- Settles O54: what any command leaves alone, the one `reg` entry that a command of R362 writes, and the commands that do
nothing else. -/
theorem gpuCommandEffects : Obligations.GpuCommandEffects := by
  intro s id l w c
  have hhost := SameHost.executeCommand s id l w
  refine ⟨fun hp => ?_, hhost.cpu, hhost.run, hhost.kernel, fun h n => ?_, fun h hc => ?_⟩
  · simp [c, geCommand, geOther, geMeaning, hp]
  · rw [State.executeCommand_of_none h]
    simp only [State.command_reg]
    exact Gpu.setReg_reg _ _ _ n
  · have hprim : c.1 ≠ 0x04#8 := fun e => hc (e ▸ (by decide))
    have hown : c.1.toNat ∉ ownCommands := fun e => hc ((by decide : ownCommands ⊆ _) e)
    have hflow : c.1.toNat ∉ flowCommands := fun e => hc ((by decide : flowCommands ⊆ _) e)
    rw [State.executeCommand_of_none h, State.command_of_not_mem hprim hown hflow]
    exact ⟨rfl, rfl, rfl⟩

/-! ## The flow of a display list (R360) -/

/-- A flow command leaves the GPU as its branch of `Gpu.flow` does. -/
theorem State.executeCommand_flow {s : State} {w : Word} {cmd : BitVec 8} {p : BitVec 24}
    (h : geCommand s.par w = (cmd, p) ∧ geOther s.par w = none) (hprim : cmd ≠ 0x04#8) (hown : cmd.toNat ∉ ownCommands)
    {id : Nat} {l l' : GeList} {g' : Gpu} (hflow : (s.gpu.setReg cmd p).flow s.par.geStackDepth l cmd p = (g', l')) :
    (s.executeCommand id l w).gpu = g'.setList id l' := by
  rw [State.executeCommand_of_none h.2, h.1, State.command_eq, if_neg hprim, State.commandGpu, Gpu.action_of_not_mem hown, hflow]

/-- `rel` reads BASE and the offset only, and a command writes neither before it uses them unless it is BASE itself. -/
theorem Gpu.jumpAddr_setReg (g : Gpu) {cmd : BitVec 8} (p q : BitVec 24) (h : cmd ≠ 0x10#8) :
    (g.setReg cmd p).jumpAddr q = g.jumpAddr q := by
  have hbase : (g.setReg cmd p).reg[(0x10 : Fin 256)] = g.reg[(0x10 : Fin 256)] := by
    rw [Gpu.setReg_reg, if_neg]
    exact fun e => h (BitVec.eq_of_toNat_eq e.symm)
  unfold Gpu.jumpAddr Gpu.rel Gpu.r
  rw [hbase]
  rfl

/-- Settles O55: each flow command by its own branch of `Gpu.flow`; OFFSET_ADDR is an action before it. -/
theorem gpuListFlow : Obligations.GpuListFlow := by
  intro s id l p word hword target after
  have hflow : ∀ {cmd : BitVec 8} {g' : Gpu} {l' : GeList}, cmd ≠ 0x04#8 → cmd.toNat ∉ ownCommands →
      (s.gpu.setReg cmd p).flow s.par.geStackDepth l cmd p = (g', l') →
      (after cmd).list? id = some l' ∧ (after cmd).offsetAddr = g'.offsetAddr := by
    intro cmd g' l' hprim hown he
    have hgpu : after cmd = g'.setList id l' := State.executeCommand_flow (hword cmd) hprim hown he
    exact hgpu ▸ ⟨Gpu.list?_setList_same g' id l', rfl⟩
  have htarget : ∀ {cmd : BitVec 8}, cmd ≠ 0x10#8 → (s.gpu.setReg cmd p).jumpAddr p = target :=
    fun hne => Gpu.jumpAddr_setReg s.gpu p p hne
  refine ⟨?jump, fun hroom => ?call, fun hfull => ?callFull, fun c o rest hstack => ?ret, fun hstack => ?retEmpty, ?fin,
    ?finish, ?origin, ?offset⟩
  case jump =>
    rw [← htarget (cmd := 0x08#8) (by decide)]
    exact (hflow (by decide) (by decide) rfl).1
  case call =>
    rw [← htarget (cmd := 0x0A#8) (by decide)]
    exact (hflow (by decide) (by decide) (by exact if_pos hroom)).1
  case callFull => exact (hflow (by decide) (by decide) (by exact if_neg (Nat.not_lt.mpr hfull))).1
  case ret =>
    exact hflow (g' := { s.gpu.setReg 0x0B#8 p with offsetAddr := o }) (by decide) (by decide)
      (by simp only [Gpu.flow, hstack])
  case retEmpty => exact hflow (g' := s.gpu.setReg 0x0B#8 p) (by decide) (by decide) (by simp only [Gpu.flow, hstack])
  case fin => exact (hflow (by decide) (by decide) rfl).1
  case finish => exact (hflow (by decide) (by decide) rfl).1
  case origin =>
    exact (hflow (g' := { s.gpu.setReg 0x14#8 p with offsetAddr := l.current - 4#32 }) (by decide) (by decide) rfl).2
  case offset =>
    have hgpu : after 0x13#8 = s.commandGpu id l 0x13#8 p := by
      simp only [after, State.executeCommand_of_none (hword _).2, (hword _).1]
      rfl
    rw [hgpu]
    rfl

end Sys2Proof.Machine
end

section
/-! SUPPORT. The top-left rule (R379): an edge walked backwards has the negated edge function and the other side of the rule. -/

namespace Sys2Proof.Machine

/-- Edge (a, b) admits a point exactly when the point is on its inner side, or on a top-left edge. -/
theorem edgeAdmits_iff (a b : GeVertex) (w : ℤ) : edgeAdmits a b w = true ↔ 0 < w ∨ w = 0 ∧ topLeft a b = true := by
  unfold edgeAdmits
  split
  · simp_all; omega
  · simp_all; omega

theorem topLeft_iff (a b : GeVertex) : topLeft a b = true ↔ a.Y = b.Y ∧ a.X < b.X ∨ b.Y < a.Y := by
  simp [topLeft]

theorem edge_reverse (a b : GeVertex) (x y : ℤ) : edge b a x y = -edge a b x y := by
  unfold edge
  ring

/-- Of the two directions of an edge that is no point, one is top-left. -/
theorem topLeft_reverse {a b : GeVertex} (h : ¬ (a.X = b.X ∧ a.Y = b.Y)) : topLeft b a = true ↔ ¬ topLeft a b = true := by
  rw [topLeft_iff, topLeft_iff]
  omega

/-- The triangle of R381: half a square of four pixels, with its two legs top-left and its hypotenuse not. -/
theorem covers_iff_of_corner {t : Triangle} (h0 : t.v0.X = 0 ∧ t.v0.Y = 0) (h1 : t.v1.X = 64 ∧ t.v1.Y = 0)
    (h2 : t.v2.X = 0 ∧ t.v2.Y = 64) (px py : Nat) : t.covers px py = true ↔ px + py < 4 := by
  obtain ⟨hx0, hy0⟩ := h0
  obtain ⟨hx1, hy1⟩ := h1
  obtain ⟨hx2, hy2⟩ := h2
  have hypotenuse : edge t.v1 t.v2 (16 * px) (16 * py) = 64 * (64 - 16 * px - 16 * py) := by
    rw [edge, hx1, hy1, hx2, hy2]; ring
  have left : edge t.v2 t.v0 (16 * px) (16 * py) = 1024 * px := by rw [edge, hx2, hy2, hx0, hy0]; ring
  have top : edge t.v0 t.v1 (16 * px) (16 * py) = 1024 * py := by rw [edge, hx0, hy0, hx1, hy1]; ring
  simp only [Triangle.covers, Triangle.weights, Bool.and_eq_true, edgeAdmits_iff, topLeft_iff, hypotenuse, left, top, hx0, hy0,
    hx1, hy1, hx2, hy2]
  norm_num
  omega

/-- Settles O56: the triangle's three edges at a pixel, and the two directions of one edge at a point. -/
theorem topLeftRule : Obligations.TopLeftRule := by
  refine ⟨fun g sense a b c hcull hax hay hbx hby hcx hcy => ?_, fun a b x y hne => ?_⟩
  · have harea : edge a b c.X c.Y = 4096 := by simp [edge, hax, hay, hbx, hby, hcx, hcy]
    have hset : setupTriangle g sense a b c =
        some { v0 := a, v1 := b, v2 := c, area := 4096, provoking := c.c } := by
      simp [setupTriangle, harea, hcull]
    exact ⟨_, hset, covers_iff_of_corner ⟨hax, hay⟩ ⟨hbx, hby⟩ ⟨hcx, hcy⟩⟩
  · rw [← Bool.not_eq_true, edge_reverse a b, edgeAdmits_iff, edgeAdmits_iff, topLeft_reverse hne]
    rcases lt_trichotomy (edge a b x y) 0 with hw | hw | hw <;> grind

end Sys2Proof.Machine
end

section
/-! SUPPORT. Channels of colours (R386 to R393, R395): every texel format, filter, texture function and blend keeps a channel
in 0 to 255, and what each texture function and blend equation computes. -/

namespace Sys2Proof.Machine

theorem Gpu.field_lt (g : Gpu) (n : Fin 256) (lo len : Nat) : g.field n lo len < 2 ^ len := BitVec.isLt _

/-! ## Packed colours (R387) -/

theorem e5_le {n : Nat} (h : n < 2 ^ 5) : e5 n ≤ 255 := by unfold e5; omega
theorem e6_le {n : Nat} (h : n < 2 ^ 6) : e6 n ≤ 255 := by unfold e6; omega
theorem e4_le {n : Nat} (h : n < 2 ^ 4) : e4 n ≤ 255 := by unfold e4; omega
theorem byte_le (v : Byte) : v.toNat ≤ 255 := Nat.le_of_lt_succ v.isLt

theorem Rgba.zero_inRange : Rgba.zero.inRange := ⟨Nat.zero_le _, Nat.zero_le _, Nat.zero_le _, Nat.zero_le _⟩

theorem decode5650_inRange (v : BitVec 16) : (decode5650 v).inRange :=
  ⟨e5_le (BitVec.isLt _), e6_le (BitVec.isLt _), e5_le (BitVec.isLt _), Nat.le_refl 255⟩

theorem decode5551_inRange (v : BitVec 16) : (decode5551 v).inRange := by
  refine ⟨e5_le (BitVec.isLt _), e5_le (BitVec.isLt _), e5_le (BitVec.isLt _), ?_⟩
  unfold decode5551
  simp only
  split <;> decide

theorem decode4444_inRange (v : BitVec 16) : (decode4444 v).inRange :=
  ⟨e4_le (BitVec.isLt _), e4_le (BitVec.isLt _), e4_le (BitVec.isLt _), e4_le (BitVec.isLt _)⟩

theorem decode8888_inRange (v : Word) : (decode8888 v).inRange := ⟨byte_le _, byte_le _, byte_le _, byte_le _⟩

theorem decodeColour_inRange (fmt : Nat) (v : Word) : (decodeColour fmt v).inRange := by
  unfold decodeColour
  split
  · exact decode5650_inRange _
  split
  · exact decode5551_inRange _
  split
  · exact decode4444_inRange _
  · exact decode8888_inRange _

/-! ## Indexed formats (R388) -/

theorem Gpu.clutColour_inRange (g : Gpu) (raw : Nat) : (g.clutColour raw).inRange := by
  unfold Gpu.clutColour
  simp only
  split
  · exact decode8888_inRange _
  · exact decodeColour_inRange _ _

/-! ## DXT blocks (R390 to R392) -/

theorem dxtThird_le {p q : Nat} (hp : p ≤ 255) (hq : q ≤ 255) : dxtThird p q ≤ 255 := by unfold dxtThird; omega

/-- The rounded third is at most 1/3 away from the exact one. -/
theorem dxtThird_rounds (p q : Nat) : |(3 * dxtThird p q : ℤ) - (2 * p + q)| ≤ 1 := by
  rw [abs_le]
  unfold dxtThird
  omega

theorem Rgba.mix_inRange {f : Nat → Nat → Nat} (hf : ∀ {p q}, p ≤ 255 → q ≤ 255 → f p q ≤ 255) {p q : Rgba}
    (hp : p.inRange) (hq : q.inRange) : (Rgba.mix f p q).inRange := by
  obtain ⟨hpr, hpg, hpb, _⟩ := hp
  obtain ⟨hqr, hqg, hqb, _⟩ := hq
  exact ⟨hf hpr hqr, hf hpg hqg, hf hpb hqb, Nat.le_refl 255⟩

theorem Rgba.channel_mix (f : Nat → Nat → Nat) (p q : Rgba) {ch : Nat} (h : ch < 3) :
    (Rgba.mix f p q).channel ch = f (p.channel ch) (q.channel ch) := by
  match ch, h with
  | 0, _ => rfl
  | 1, _ => rfl
  | 2, _ => rfl

theorem Rgba.channel_zero (ch : Nat) : Rgba.zero.channel ch = 0 := by
  unfold Rgba.channel
  split <;> rfl

theorem dxtPalette_inRange (c1 c2 : BitVec 16) (i : Nat) : (dxtPalette c1 c2 i).inRange := by
  have h1 := decode5650_inRange c1
  have h2 := decode5650_inRange c2
  unfold dxtPalette
  simp only
  split
  · exact h1
  split
  · exact h2
  split
  · split
    · exact Rgba.mix_inRange dxtThird_le h1 h2
    · exact Rgba.mix_inRange dxtThird_le h2 h1
  split
  · exact Rgba.mix_inRange (fun _ _ => by omega) h1 h2
  · exact Rgba.zero_inRange

/-- Where `color1 > color2`, entries 2 and 3 are the two thirds between the base colours. -/
theorem dxtPalette_thirds {c1 c2 : BitVec 16} (h : c2.toNat < c1.toNat) :
    dxtPalette c1 c2 2 = Rgba.mix dxtThird (dxtPalette c1 c2 0) (dxtPalette c1 c2 1) ∧
      dxtPalette c1 c2 3 = Rgba.mix dxtThird (dxtPalette c1 c2 1) (dxtPalette c1 c2 0) := by
  simp [dxtPalette, h]

theorem dxtPalette_black {c1 c2 : BitVec 16} (h : c1.toNat ≤ c2.toNat) : dxtPalette c1 c2 3 = Rgba.zero := by
  simp [dxtPalette, Nat.not_lt.mpr h]

theorem dxt5Alpha_le {a0 a1 k : Nat} (h0 : a0 ≤ 255) (h1 : a1 ≤ 255) (hk : k < 8) : dxt5Alpha a0 a1 k ≤ 255 := by
  unfold dxt5Alpha
  split
  · exact h0
  split
  · exact h1
  split
  · refine Nat.div_le_of_le_mul ?_
    calc (8 - k) * a0 + (k - 1) * a1 ≤ (8 - k) * 255 + (k - 1) * 255 := by gcongr
      _ = 7 * 255 := by omega
  split
  · exact Nat.zero_le _
  split
  · exact Nat.le_refl _
  · refine Nat.div_le_of_le_mul ?_
    calc (6 - k) * a0 + (k - 1) * a1 ≤ (6 - k) * 255 + (k - 1) * 255 := by gcongr
      _ = 5 * 255 := by omega

theorem dxtColour_inRange (p : Params) (m : List Host.Cell) (blk : Word) (x y : Nat) : (dxtColour p m blk x y).inRange :=
  dxtPalette_inRange _ _ _

/-- Another alpha for a colour. -/
theorem Rgba.withAlpha_inRange {c : Rgba} (h : c.inRange) {a : Nat} (ha : a ≤ 255) : ({ c with a := a } : Rgba).inRange := by
  obtain ⟨hr, hg, hb, _⟩ := h
  exact ⟨hr, hg, hb, ha⟩

theorem Gpu.dxtTexel_inRange (g : Gpu) (p : Params) (m : List Host.Cell) (base : Word) (fmt x y : Nat) :
    (g.dxtTexel p m base fmt x y).inRange := by
  unfold Gpu.dxtTexel
  simp only
  split
  · exact dxtColour_inRange _ _ _ _ _
  split
  · exact Rgba.withAlpha_inRange (dxtColour_inRange _ _ _ _ _) (e4_le (BitVec.isLt _))
  · exact Rgba.withAlpha_inRange (dxtColour_inRange _ _ _ _ _)
      (dxt5Alpha_le (byte_le _) (byte_le _) (Nat.mod_lt _ (by decide)))

/-! ## Texels and sampling (R386) -/

theorem Gpu.texel_inRange (g : Gpu) (p : Params) (m : List Host.Cell) (x y : Nat) : (g.texel p m x y).inRange := by
  unfold Gpu.texel
  simp only
  split
  · exact Rgba.zero_inRange
  split
  · exact Gpu.dxtTexel_inRange _ _ _ _ _ _ _
  split
  · exact decodeColour_inRange _ _
  · exact Gpu.clutColour_inRange _ _

theorem Gpu.texelAt_inRange (g : Gpu) (p : Params) (m : List Host.Cell) (i j : Int) : (g.texelAt p m i j).inRange :=
  Gpu.texel_inRange _ _ _ _ _

/-- The four weights of a bilinear sample add up to 2^16. -/
theorem bilinear_le {c00 c10 c01 c11 fx fy : Nat} (h00 : c00 ≤ 255) (h10 : c10 ≤ 255) (h01 : c01 ≤ 255) (h11 : c11 ≤ 255)
    (hx : fx ≤ 256) (hy : fy ≤ 256) : bilinear c00 c10 c01 c11 fx fy ≤ 255 := by
  refine Nat.div_le_of_le_mul ?_
  calc c00 * (256 - fx) * (256 - fy) + c10 * fx * (256 - fy) + c01 * (256 - fx) * fy + c11 * fx * fy
      ≤ 255 * (256 - fx) * (256 - fy) + 255 * fx * (256 - fy) + 255 * (256 - fx) * fy + 255 * fx * fy := by gcongr
    _ = 255 * ((256 - fx + fx) * (256 - fy + fy)) := by ring
    _ = 2 ^ 16 * 255 := by rw [Nat.sub_add_cancel hx, Nat.sub_add_cancel hy]; rfl

theorem Gpu.sample_inRange (g : Gpu) (p : Params) (m : List Host.Cell) (S T : Int) : (g.sample p m S T).inRange := by
  unfold Gpu.sample
  simp only
  split
  · have hx : ((S - 128) % 256).toNat ≤ 256 := by omega
    have hy : ((T - 128) % 256).toNat ≤ 256 := by omega
    obtain ⟨r00, g00, b00, a00⟩ := g.texelAt_inRange p m ((S - 128).fdiv 256) ((T - 128).fdiv 256)
    obtain ⟨r10, g10, b10, a10⟩ := g.texelAt_inRange p m ((S - 128).fdiv 256 + 1) ((T - 128).fdiv 256)
    obtain ⟨r01, g01, b01, a01⟩ := g.texelAt_inRange p m ((S - 128).fdiv 256) ((T - 128).fdiv 256 + 1)
    obtain ⟨r11, g11, b11, a11⟩ := g.texelAt_inRange p m ((S - 128).fdiv 256 + 1) ((T - 128).fdiv 256 + 1)
    exact ⟨bilinear_le r00 r10 r01 r11 hx hy, bilinear_le g00 g10 g01 g11 hx hy, bilinear_le b00 b10 b01 b11 hx hy,
      bilinear_le a00 a10 a01 a11 hx hy⟩
  · exact Gpu.texelAt_inRange _ _ _ _ _

/-! ## The texture function (R393) -/

section
variable {func : Nat} (rgba : Bool) (ct cf ce at_ : Nat)

theorem texFuncColour_modulate (h : func = 0 ∨ 5 ≤ func) : texFuncColour func rgba ct cf ce at_ = ct * cf / 255 := by
  unfold texFuncColour
  rw [if_neg (by omega), if_neg (by omega), if_neg (by omega), if_neg (by omega)]
  rfl

theorem texFuncColour_decal :
    texFuncColour 1 rgba ct cf ce at_ = if rgba then (ct * at_ + cf * (255 - at_)) / 255 else ct := rfl

theorem texFuncColour_blend : texFuncColour 2 rgba ct cf ce at_ = (cf * (255 - ct) + ce * ct) / 255 := rfl

theorem texFuncColour_replace : texFuncColour 3 rgba ct cf ce at_ = ct := rfl

theorem texFuncColour_add : texFuncColour 4 rgba ct cf ce at_ = min 255 (ct + cf) := rfl

theorem texFuncAlpha_modulate (af : Nat) (h1 : func ≠ 1) (h3 : func ≠ 3) :
    texFuncAlpha func rgba at_ af = if rgba then at_ * af / 255 else af := by
  unfold texFuncAlpha
  rw [if_neg h1, if_neg h3]
  rfl
end

/-- The mean of two channels, weighted by a channel and the rest of 255, is a channel. -/
theorem weighted_le {a b w : Nat} (ha : a ≤ 255) (hb : b ≤ 255) (hw : w ≤ 255) : (a * w + b * (255 - w)) / 255 ≤ 255 := by
  refine Nat.div_le_of_le_mul ?_
  calc a * w + b * (255 - w) ≤ 255 * w + 255 * (255 - w) := by gcongr
    _ = 255 * 255 := by rw [← Nat.mul_add, Nat.add_sub_cancel' hw]

theorem mul255_le {a b : Nat} (ha : a ≤ 255) (hb : b ≤ 255) : mul255 a b ≤ 255 :=
  Nat.div_le_of_le_mul (Nat.mul_le_mul ha hb)

theorem texFuncColour_le (func : Nat) (rgba : Bool) {ct cf ce at_ : Nat} (ht : ct ≤ 255) (hf : cf ≤ 255) (he : ce ≤ 255)
    (ha : at_ ≤ 255) : texFuncColour func rgba ct cf ce at_ ≤ 255 := by
  unfold texFuncColour
  split
  · split
    · exact weighted_le ht hf ha
    · exact ht
  split
  · rw [Nat.add_comm]
    exact weighted_le he hf ht
  split
  · exact ht
  split
  · exact Nat.min_le_left _ _
  · exact mul255_le ht hf

theorem texFuncAlpha_le (func : Nat) (rgba : Bool) {at_ af : Nat} (ha : at_ ≤ 255) (hf : af ≤ 255) :
    texFuncAlpha func rgba at_ af ≤ 255 := by
  unfold texFuncAlpha
  split
  · exact hf
  split
  · split <;> assumption
  split
  · exact mul255_le ha hf
  · exact hf

theorem doubled_le (d : Bool) {c : Nat} (h : c ≤ 255) : doubled d c ≤ 255 := by
  unfold doubled
  split
  · exact Nat.min_le_left _ _
  · exact h

theorem Gpu.textured_inRange (g : Gpu) (p : Params) (m : List Host.Cell) (f : Fragment) (h : f.c.inRange) :
    (g.textured p m f).inRange := by
  have hfield : ∀ lo, g.field 0xCA lo 8 ≤ 255 := fun lo => Nat.le_of_lt_succ (g.field_lt _ lo 8)
  obtain ⟨tr, tg, tb, ta⟩ := g.sample_inRange p m f.S f.T
  obtain ⟨fr, fg, fb, fa⟩ := id h
  unfold Gpu.textured
  split
  · exact ⟨doubled_le _ (texFuncColour_le _ _ tr fr (hfield 0) ta), doubled_le _ (texFuncColour_le _ _ tg fg (hfield 8) ta),
      doubled_le _ (texFuncColour_le _ _ tb fb (hfield 16) ta), texFuncAlpha_le _ _ ta fa⟩
  · exact h

/-! ## Blending (R395) -/

theorem clamp255_le (z : Int) : clamp255 z ≤ 255 := by unfold clamp255; omega

theorem clamp255_cast (z : Int) : (clamp255 z : ℤ) = max 0 (min 255 z) := by unfold clamp255; omega

theorem blendEquation_le (eq fs fd : Nat) {cs cd : Nat} (hs : cs ≤ 255) (hd : cd ≤ 255) :
    blendEquation eq cs cd fs fd ≤ 255 := by
  unfold blendEquation
  simp only
  split
  · exact clamp255_le _
  split
  · exact clamp255_le _
  split
  · exact le_trans (Nat.min_le_left _ _) hs
  split
  · exact max_le hs hd
  split
  · exact le_trans (Nat.sub_le _ _) (max_le hs hd)
  · exact clamp255_le _

theorem Gpu.blended_inRange (g : Gpu) {c d : Rgba} (hc : c.inRange) (hd : d.inRange) : (g.blended c d).inRange := by
  obtain ⟨cr, cg, cb, ca⟩ := id hc
  obtain ⟨dr, dg, db, _⟩ := hd
  unfold Gpu.blended
  split
  · exact ⟨blendEquation_le _ _ _ cr dr, blendEquation_le _ _ _ cg dg, blendEquation_le _ _ _ cb db, ca⟩
  · exact hc

/-- Settles O60: the range of every colour on the way to the framebuffer, and the palette of a block. -/
theorem channelsStayInRange : Obligations.ChannelsStayInRange := by
  refine ⟨Gpu.sample_inRange, Gpu.textured_inRange, fun g c d hc hd => g.blended_inRange hc hd,
    fun c1 c2 => ⟨fun h ch hch => ?_, fun h ch _ => ?_⟩⟩
  · obtain ⟨h2, h3⟩ := dxtPalette_thirds h
    rw [h2, h3, Rgba.channel_mix _ _ _ hch, Rgba.channel_mix _ _ _ hch]
    refine ⟨dxtThird_rounds _ _, ?_⟩
    rw [add_comm (Nat.cast _)]
    exact dxtThird_rounds _ _
  · rw [dxtPalette_black h, Rgba.channel_zero]

/-- The pairs of a factor code and its value, for the other colour's channel, the two alphas and the fixed channel (R395). -/
def blendFactors (other as_ ad fix : Nat) : List (Nat × Nat) :=
  [(0, other), (1, 255 - other)] ++
    [(2, as_), (3, 255 - as_), (4, ad), (5, 255 - ad), (6, 2 * as_), (7, 2 * (255 - as_)), (8, 2 * ad), (9, 2 * (255 - ad))] ++
    (List.range 6).map fun i => (10 + i, fix)

/-- The model's factor of a code is the one that the table gives it. -/
theorem blendFactor_of_mem {other as_ ad fix : Nat} {e : Nat × Nat} (h : e ∈ blendFactors other as_ ad fix) :
    blendFactor e.1 other as_ ad fix = e.2 := by
  simp only [blendFactors, List.range_succ_eq_map, List.range_zero, List.map_cons, List.map_nil, List.mem_append, List.mem_cons,
    List.not_mem_nil, or_false] at h
  rcases h with ((rfl | rfl) | (rfl | rfl | rfl | rfl | rfl | rfl | rfl | rfl)) | (rfl | rfl | rfl | rfl | rfl | rfl) <;> rfl

/-- The model divides by 255 rounding down. -/
theorem fdiv_255_eq_floor (z : ℤ) : z.fdiv 255 = ⌊(z : ℚ) / 255⌋ := by
  rw [Int.fdiv_eq_ediv_of_nonneg z (by decide)]
  exact (Rat.floor_intCast_div_natCast z 255).symm

section
variable {eq : Nat} (cs cd fs fd : Nat)

theorem blendEquation_add (h : eq = 0 ∨ 6 ≤ eq) : blendEquation eq cs cd fs fd = min 255 ((cs * fs + cd * fd) / 255) := by
  unfold blendEquation
  simp only
  rw [if_neg (by omega), if_neg (by omega), if_neg (by omega), if_neg (by omega), if_neg (by omega),
    Int.fdiv_eq_ediv_of_nonneg _ (by decide)]
  zify
  rw [clamp255_cast, max_eq_right (by positivity)]

theorem blendEquation_subtract :
    (blendEquation 1 cs cd fs fd : ℤ) = max 0 (min 255 ⌊((cs * fs : ℚ) - cd * fd) / 255⌋) := by
  refine (clamp255_cast _).trans ?_
  rw [fdiv_255_eq_floor]
  push_cast
  rfl

theorem blendEquation_reverse :
    (blendEquation 2 cs cd fs fd : ℤ) = max 0 (min 255 ⌊((cd * fd : ℚ) - cs * fs) / 255⌋) := by
  refine (clamp255_cast _).trans ?_
  rw [fdiv_255_eq_floor]
  push_cast
  rfl

theorem blendEquation_min : blendEquation 3 cs cd fs fd = min cs cd := rfl

theorem blendEquation_max : blendEquation 4 cs cd fs fd = max cs cd := rfl

theorem blendEquation_absDiff : (blendEquation 5 cs cd fs fd : ℤ) = |(cs : ℤ) - cd| := by
  have h : blendEquation 5 cs cd fs fd = max cs cd - min cs cd := rfl
  rw [h]
  rcases abs_cases ((cs : ℤ) - cd) with ⟨he, _⟩ | ⟨he, _⟩ <;> rw [he] <;> omega
end

/-- A channel of stage 7 under factor codes of the table is the blend equation of their values. -/
theorem Gpu.blendChannel_of_mem (g : Gpu) {cs cd as_ ad fixA fixB : Nat} {fs fd : Nat × Nat}
    (hs : fs ∈ blendFactors cd as_ ad fixA) (hd : fd ∈ blendFactors cs as_ ad fixB)
    (es : g.field 0xDF 0 4 = fs.1) (ed : g.field 0xDF 4 4 = fd.1) :
    g.blendChannel cs cd as_ ad fixA fixB = blendEquation (g.field 0xDF 8 3) cs cd fs.2 fd.2 := by
  rw [Gpu.blendChannel, es, ed, blendFactor_of_mem hs, blendFactor_of_mem hd]

theorem Gpu.textured_of_off {g : Gpu} (h : g.flag 0x1E 0 = false) (p : Params) (m : List Host.Cell) (f : Fragment) :
    g.textured p m f = f.c := by
  simp [Gpu.textured, h]

theorem Gpu.blended_of_off {g : Gpu} (h : g.flag 0x21 0 = false) (c d : Rgba) : g.blended c d = c := by
  simp [Gpu.blended, h]

/-- A channel after the texture function and doubling, by function code. -/
theorem doubled_texFuncColour {v func ct cf ce at_ : Nat} {rgba twice : Bool}
    (hv : v = doubled twice (texFuncColour func rgba ct cf ce at_)) :
    (func = 0 ∨ 5 ≤ func → v = doubled twice (ct * cf / 255)) ∧
    (func = 1 → v = doubled twice (if rgba then (ct * at_ + cf * (255 - at_)) / 255 else ct)) ∧
    (func = 2 → v = doubled twice ((cf * (255 - ct) + ce * ct) / 255)) ∧
    (func = 3 → v = doubled twice ct) ∧ (func = 4 → v = doubled twice (min 255 (ct + cf))) := by
  subst hv
  refine ⟨fun h => ?_, fun h => ?_, fun h => ?_, fun h => ?_, fun h => ?_⟩
  · rw [texFuncColour_modulate rgba ct cf ce at_ h]
  · rw [h, texFuncColour_decal]
  · rw [h, texFuncColour_blend]
  · rw [h, texFuncColour_replace]
  · rw [h, texFuncColour_add]

/-- A channel after blending, by equation code and for any two factors of the table. -/
theorem Gpu.blendChannel_cases {g : Gpu} {v eq cs cd as_ ad fixA fixB : Nat} (he : g.field 0xDF 8 3 = eq)
    (hv : v = g.blendChannel cs cd as_ ad fixA fixB) :
    (eq = 3 → v = min cs cd) ∧ (eq = 4 → v = max cs cd) ∧ (eq = 5 → (v : ℤ) = |(cs : ℤ) - cd|) ∧
    ∀ fs ∈ blendFactors cd as_ ad fixA, ∀ fd ∈ blendFactors cs as_ ad fixB,
      g.field 0xDF 0 4 = fs.1 → g.field 0xDF 4 4 = fd.1 →
        (eq = 0 ∨ eq = 6 ∨ eq = 7 → v = min 255 ((cs * fs.2 + cd * fd.2) / 255)) ∧
        (eq = 1 → (v : ℤ) = max 0 (min 255 ⌊((cs * fs.2 : ℚ) - cd * fd.2) / 255⌋)) ∧
        (eq = 2 → (v : ℤ) = max 0 (min 255 ⌊((cd * fd.2 : ℚ) - cs * fs.2) / 255⌋)) := by
  refine ⟨fun h => ?_, fun h => ?_, fun h => ?_, fun fs hs fd hd es ed => ?_⟩
  · rw [hv, Gpu.blendChannel, he, h, blendEquation_min]
  · rw [hv, Gpu.blendChannel, he, h, blendEquation_max]
  · rw [hv, Gpu.blendChannel, he, h, blendEquation_absDiff]
  · rw [hv, g.blendChannel_of_mem hs hd es ed, he]
    refine ⟨fun h => blendEquation_add _ _ _ _ (by omega), fun h => ?_, fun h => ?_⟩
    · rw [h, blendEquation_subtract]
    · rw [h, blendEquation_reverse]

/-- Settles O59: each channel is one use of the texture function, or of a blend equation with its two factors. -/
theorem textureFunctionAndBlend : Obligations.TextureFunctionAndBlend := by
  intro g p m f c d
  refine ⟨fun h => Gpu.textured_of_off h p m f, fun h => ?texture, fun h => Gpu.blended_of_off h c d, fun h => ?blend⟩
  case texture =>
    intro t v func rgba modulated
    have hv : v = { r := _, g := _, b := _, a := texFuncAlpha func rgba t.a f.c.a } := if_pos h
    have ha : v.a = texFuncAlpha func rgba t.a f.c.a := congrArg Rgba.a hv
    refine ⟨fun ch hch => ?_, fun h1 => ?_, fun h3 => ?_, fun h1 h3 => ?_⟩
    · simp only [List.mem_cons, List.not_mem_nil, or_false] at hch
      rcases hch with rfl | rfl | rfl
      · exact doubled_texFuncColour (congrArg Rgba.r hv)
      · exact doubled_texFuncColour (congrArg Rgba.g hv)
      · exact doubled_texFuncColour (congrArg Rgba.b hv)
    · rw [ha, h1]; rfl
    · rw [ha, h3]; rfl
    · rw [ha, texFuncAlpha_modulate rgba t.a f.c.a h1 h3]
  case blend =>
    intro v eq alphas fixed
    have hv : v = { r := _, g := _, b := _, a := c.a } := if_pos h
    refine ⟨(congrArg Rgba.a hv).trans rfl, fun ch hch => ?_⟩
    simp only [List.mem_cons, List.not_mem_nil, or_false] at hch
    rcases hch with rfl | rfl | rfl
    · exact Gpu.blendChannel_cases rfl (congrArg Rgba.r hv)
    · exact Gpu.blendChannel_cases rfl (congrArg Rgba.g hv)
    · exact Gpu.blendChannel_cases rfl (congrArg Rgba.b hv)

end Sys2Proof.Machine
end

section
/-! SUPPORT. The stages of one fragment (R382 to R385, R394, R396, R397): when it passes, what is then written, and what the
pixel, the depth and the bytes around them hold afterwards. -/

namespace Sys2Proof.Machine

/-! ## The stages (R382) -/

/-- The model's comparison is the one of R383. -/
theorem compare_iff (func : Nat) (a b : ℤ) : compare func a b = true ↔ comparePasses func a b := by
  unfold comparePasses
  split <;> simp_all [compare]

theorem Gpu.inScissor_iff (g : Gpu) (px py : Nat) : g.inScissor px py = true ↔
    g.field 0xD4 0 10 ≤ px ∧ px ≤ g.field 0xD5 0 10 ∧ g.field 0xD4 10 10 ≤ py ∧ py ≤ g.field 0xD5 10 10 := by
  simp [Gpu.inScissor, and_assoc]

theorem Gpu.depthRange_none {g : Gpu} {z : ℤ} (h : z < (g.field 0xD6 0 16 : ℤ) ∨ (g.field 0xD7 0 16 : ℤ) < z) :
    g.depthRange false z = none := by
  have hout : ¬ ((g.field 0xD6 0 16 : ℤ) ≤ z ∧ z ≤ (g.field 0xD7 0 16 : ℤ)) := by omega
  simp [Gpu.depthRange, hout]

/-- A depth that the range clip passes is one of 16 bits. -/
theorem Gpu.depthRange_bounds {g : Gpu} {through : Bool} {z z' : ℤ} (h : g.depthRange through z = some z') :
    0 ≤ z' ∧ z' ≤ 65535 := by
  have hmax := g.field_lt 0xD7 0 16
  unfold Gpu.depthRange at h
  split at h
  · cases h
    omega
  · split at h <;> cases h
    omega

theorem Gpu.depthTest_iff (g : Gpu) (p : Params) (m : List Host.Cell) (px py : Nat) (z : ℤ) : g.depthTest p m px py z = true ↔
    (g.flag 0x23 0 = true → comparePasses (g.field 0xDE 0 3) z (geHalf p m (g.depthAddr px py)).toNat) := by
  rw [Gpu.depthTest, Bool.or_eq_true, compare_iff]
  cases g.flag 0x23 0 <;> simp

theorem Gpu.alphaTest_iff (g : Gpu) (a : Nat) : g.alphaTest a = true ↔
    (g.flag 0x22 0 = true → comparePasses (g.field 0xDB 0 3) (a &&& g.field 0xDB 16 8 : ℕ)
      (g.field 0xDB 8 8 &&& g.field 0xDB 16 8 : ℕ)) := by
  rw [Gpu.alphaTest, Bool.or_eq_true, compare_iff]
  cases g.flag 0x22 0 <;> simp

/-- The fragment passes every stage, its depth being `z` after the range clip. -/
structure PassesStages (s : State) (d : DrawContext) (f : Fragment) (z : ℤ) : Prop where
  depthRange : s.gpu.depthRange d.through f.z = some z
  depthTest : s.gpu.depthTest s.par s.mem f.px f.py z = true
  alphaTest : s.gpu.alphaTest (s.gpu.textured s.par d.snapshot f).a = true

section
variable {s : State} {d : DrawContext} {f : Fragment}

/-- A fragment that is not written in clear mode and passes no stages leaves the whole state as it is. -/
theorem State.shade_discarded
    (h : s.gpu.inScissor f.px f.py = true → s.gpu.flag 0xD3 0 = false ∧ ∀ z, ¬ PassesStages s d f z) : s.shade d f = s := by
  unfold State.shade
  simp only
  split
  · rfl
  rename_i hin
  obtain ⟨hclear, hpass⟩ := h (by simpa using hin)
  rw [hclear, if_neg Bool.false_ne_true]
  split
  · rfl
  rename_i z hz
  split
  · rfl
  rename_i hdepth
  split
  · rfl
  rename_i halpha
  exact absurd ⟨hz, by simpa using hdepth, by simpa using halpha⟩ (hpass z)

theorem State.shade_clear (hin : s.gpu.inScissor f.px f.py = true) (hclear : s.gpu.flag 0xD3 0 = true) :
    s.shade d f = s.clearFragment d.through f := by
  simp [State.shade, hin, hclear]

theorem State.shade_passes {z : ℤ} (hin : s.gpu.inScissor f.px f.py = true) (hclear : s.gpu.flag 0xD3 0 = false)
    (h : PassesStages s d f z) :
    s.shade d f = s.writeFragment f.px f.py z
      (s.gpu.blended (s.gpu.textured s.par d.snapshot f) (s.gpu.destColour (s.gpu.readPixel s.par s.mem f.px f.py))) := by
  simp [State.shade, hin, hclear, h.depthRange, h.depthTest, h.alphaTest]
end

/-- Settles O57: each clause names a stage that the fragment does not pass. -/
theorem discardedFragmentWritesNothing : Obligations.DiscardedFragmentWritesNothing := by
  intro s d f
  refine ⟨fun hout => ?scissor, fun hclear hthrough hz => ?range, fun z hclear hon hz hfail => ?depth,
    fun hclear hon hfail => ?alpha⟩
  case scissor =>
    refine State.shade_discarded fun hin => ?_
    rw [Gpu.inScissor_iff] at hin
    omega
  case range =>
    refine State.shade_discarded fun _ => ⟨hclear, fun z' h => ?_⟩
    have hnone := h.depthRange
    rw [hthrough, Gpu.depthRange_none hz] at hnone
    cases hnone
  case depth =>
    refine State.shade_discarded fun _ => ⟨hclear, fun z' h => hfail ?_⟩
    obtain rfl : z = z' := Option.some.inj (hz.symm.trans h.depthRange)
    exact (Gpu.depthTest_iff _ _ _ _ _ _).mp h.depthTest hon
  case alpha =>
    exact State.shade_discarded fun _ => ⟨hclear, fun z' h => hfail ((Gpu.alphaTest_iff _ _).mp h.alphaTest hon)⟩

/-! ## Accesses of the GPU to mapped addresses (R356) -/

/-- The `n` bytes from virtual address `a` lie at physical address `pa`. -/
def Mapped (p : Params) (a : Word) (pa n : Nat) : Prop := ∀ k, k < n → translate p (a + BitVec.ofNat 32 k) = some (pa + k)

theorem geByte_of_mapped {p : Params} {a : Word} {pa n : Nat} (h : Mapped p a pa n) (m : List Host.Cell) {k : Nat} (hk : k < n) :
    geByte p m (a + BitVec.ofNat 32 k) = Memory.read m (pa + k) := by
  simp only [geByte, h k hk]

theorem geHalf_of_mapped {p : Params} {a : Word} {pa : Nat} (h : Mapped p a pa 2) (m : List Host.Cell) :
    geHalf p m a = Memory.half m pa := by
  have h0 := geByte_of_mapped h m (k := 0) (by decide)
  have h1 := geByte_of_mapped h m (k := 1) (by decide)
  rw [BitVec.add_zero] at h0
  rw [geHalf, Memory.half, h0]
  exact congrArg (· ++ _) h1

theorem geWord_of_mapped {p : Params} {a : Word} {pa : Nat} (h : Mapped p a pa 4) (m : List Host.Cell) :
    geWord p m a = Memory.word m pa := by
  have hbyte : ∀ {k}, k < 4 → _ := fun {k} hk => geByte_of_mapped h m (k := k) hk
  have h0 := hbyte (k := 0) (by decide)
  rw [BitVec.add_zero] at h0
  rw [geWord, Memory.word, h0]
  exact congr (congr (congrArg _ (hbyte (k := 1) (by decide))) (hbyte (k := 2) (by decide))) (hbyte (k := 3) (by decide))

theorem Mapped.tail {p : Params} {a : Word} {pa n : Nat} (h : Mapped p a pa (n + 1)) : Mapped p (a + 1#32) (pa + 1) n := by
  intro k hk
  have he : a + 1#32 + BitVec.ofNat 32 k = a + BitVec.ofNat 32 (k + 1) := by
    rw [BitVec.add_assoc, Nat.add_comm k 1, BitVec.ofNat_add]
  rw [he, h (k + 1) (by omega), Nat.add_right_comm, Nat.add_assoc]

/-- A write of the GPU to mapped addresses is a store of its bytes. -/
theorem State.geWrite_mem : ∀ (bs : List Byte) {s : State} {a : Word} {pa : Nat}, Mapped s.par a pa bs.length →
    (s.geWrite a bs).mem = (s.storeBytes pa bs).mem
  | [], _, _, _, _ => rfl
  | b :: bs, s, a, pa, h => by
    have h0 := h 0 (Nat.succ_pos _)
    rw [BitVec.add_zero] at h0
    have hb : s.geWriteByte a b = s.storeBytes pa [b] := by simp only [State.geWriteByte, h0]; rfl
    rw [State.geWrite, hb]
    exact State.geWrite_mem bs (s := s.storeBytes pa [b]) h.tail

/-! ## Halfwords (R55) -/

theorem Memory.half_congr {m n : List Host.Cell} {pa : Nat} (h : ∀ k, k < 2 → Memory.read m (pa + k) = Memory.read n (pa + k)) :
    Memory.half m pa = Memory.half n pa := by
  have h0 : Memory.read m pa = Memory.read n pa := h 0 (by decide)
  have h1 : Memory.read m (pa + 1) = Memory.read n (pa + 1) := h 1 (by decide)
  rw [Memory.half, Memory.half, h0, h1]

/-- A halfword that was written reads back. -/
theorem Memory.half_writeList {m : List Host.Cell} (hm : Memory.wf m = true) (pa : Nat) (v : BitVec 16) :
    Memory.half (Memory.writeList m pa (halfBytes v)) pa = v := by
  have hbyte : ∀ k (hk : k < 2), Memory.read (Memory.writeList m pa (halfBytes v)) (pa + k) = (halfBytes v)[k] := by
    intro k hk
    rw [Memory.read_writeList _ _ _ _ hm, dif_pos ⟨Nat.le_add_right _ _, by rw [halfBytes_length]; omega⟩]
    simp only [Nat.add_sub_cancel_left]
    rfl
  have hlow : Memory.read (Memory.writeList m pa (halfBytes v)) pa = v.extractLsb' 0 8 := hbyte 0 (by decide)
  have hhigh : Memory.read (Memory.writeList m pa (halfBytes v)) (pa + 1) = v.extractLsb' 8 8 := hbyte 1 (by decide)
  rw [Memory.half, hlow, hhigh]
  exact BitVec.extractLsb'_append_extractLsb'_eq_extractLsb' rfl |>.trans (BitVec.extractLsb'_eq_self)

/-! ## Pixels in memory (R365, R396) -/

/-- The bytes of a pixel. -/
def pixelSize (fmt : Nat) : Nat := if fmt = 3 then 4 else 2

/-- What the framebuffer keeps of a pixel value. -/
def pixelBytes (fmt : Nat) (v : Word) : List Byte := if fmt = 3 then wordBytes v else halfBytes (v.setWidth 16)

/-- The pixel at physical address `pa`. -/
def pixelAt (fmt : Nat) (m : List Host.Cell) (pa : Nat) : Word :=
  if fmt = 3 then Memory.word m pa else (Memory.half m pa).setWidth 32

theorem pixelBytes_length (fmt : Nat) (v : Word) : (pixelBytes fmt v).length = pixelSize fmt := by
  unfold pixelBytes pixelSize
  split <;> rfl

theorem Gpu.readPixel_of_mapped {g : Gpu} {p : Params} {px py pa : Nat}
    (h : Mapped p (g.pixelAddr px py) pa (pixelSize g.fbFmt)) (m : List Host.Cell) :
    g.readPixel p m px py = pixelAt g.fbFmt m pa := by
  unfold pixelSize at h
  unfold Gpu.readPixel pixelAt
  split
  · rename_i hfmt
    rw [if_pos hfmt] at h
    exact geWord_of_mapped h m
  · rename_i hfmt
    rw [if_neg hfmt] at h
    rw [geHalf_of_mapped h m]

theorem pixelAt_congr {fmt pa : Nat} {m n : List Host.Cell}
    (h : ∀ k, k < pixelSize fmt → Memory.read m (pa + k) = Memory.read n (pa + k)) : pixelAt fmt m pa = pixelAt fmt n pa := by
  unfold pixelSize at h
  unfold pixelAt
  split
  · rename_i hfmt
    rw [if_pos hfmt] at h
    exact Memory.word_congr h
  · rename_i hfmt
    rw [if_neg hfmt] at h
    rw [Memory.half_congr h]

/-! ## Channels of pixels (R387, R396) -/

/-- The bits `mask` hold the whole of a channel. -/
def MaskCovers (fmt ch : Nat) (mask : Word) : Prop :=
  mask.extractLsb' (channelField fmt ch).1 (channelField fmt ch).2 = BitVec.allOnes _

/-- The bits `mask` hold nothing of a channel. -/
def MaskSpares (fmt ch : Nat) (mask : Word) : Prop := mask.extractLsb' (channelField fmt ch).1 (channelField fmt ch).2 = 0#_

theorem mergeBits_zero (old v : Word) : mergeBits old v 0#32 = old := by
  rw [mergeBits, BitVec.and_zero, BitVec.or_zero, BitVec.not_zero, BitVec.and_allOnes]

theorem pixelAgrees_mergeBits_of_covers {fmt ch : Nat} {mask : Word} (h : MaskCovers fmt ch mask) (old v : Word) :
    pixelAgrees fmt ch (mergeBits old v mask) v := by
  refine BitVec.eq_of_getLsbD_eq fun i hi => ?_
  have hbit := congrArg (BitVec.getLsbD · i) h
  simp only [BitVec.getLsbD_extractLsb', BitVec.getLsbD_allOnes, hi, decide_true, Bool.true_and] at hbit
  simp [mergeBits, BitVec.getLsbD_extractLsb', hbit]

theorem pixelAgrees_mergeBits_of_spares {fmt ch : Nat} {mask : Word} (h : MaskSpares fmt ch mask) (old v : Word) :
    pixelAgrees fmt ch (mergeBits old v mask) old := by
  refine BitVec.eq_of_getLsbD_eq fun i hi => ?_
  have hbit := congrArg (BitVec.getLsbD · i) h
  simp only [BitVec.getLsbD_extractLsb', BitVec.getLsbD_zero, hi, decide_true, Bool.true_and] at hbit
  have hin : old.getLsbD ((channelField fmt ch).1 + i) = true → (channelField fmt ch).1 + i < 32 := BitVec.lt_of_getLsbD
  simpa [mergeBits, BitVec.getLsbD_extractLsb', hbit, hi] using hin

theorem pixelAgrees_trans {fmt ch : Nat} {u v w : Word} (h : pixelAgrees fmt ch u v) (k : pixelAgrees fmt ch v w) :
    pixelAgrees fmt ch u w := Eq.trans h k

theorem pixelHolds_congr {fmt ch n : Nat} {v w : Word} (h : pixelAgrees fmt ch v w) (hw : pixelHolds fmt ch w n) :
    pixelHolds fmt ch v n := by
  unfold pixelHolds
  rw [h]
  exact hw

theorem pixelHolds_ofNat_iff {fmt ch n k : Nat} (hn : n < 2 ^ 32) : pixelHolds fmt ch (BitVec.ofNat 32 n) k ↔
    n / 2 ^ (channelField fmt ch).1 % 2 ^ (channelField fmt ch).2 = k / 2 ^ (8 - (channelField fmt ch).2) := by
  rw [pixelHolds, BitVec.extractLsb'_toNat, BitVec.toNat_ofNat, Nat.mod_eq_of_lt hn, Nat.shiftRight_eq_div_pow]

/-- A colour encoded by truncation holds each of its channels. -/
theorem pixelHolds_encodeColour {fmt ch : Nat} {c : Rgba} (hfmt : fmt < 4) (hch : ch < 4) (hc : c.inRange) :
    pixelHolds fmt ch (encodeColour fmt c) (c.channel ch) := by
  obtain ⟨hr, hg, hb, ha⟩ := hc
  match fmt, hfmt with
  | 0, _ =>
    refine (pixelHolds_ofNat_iff (by omega)).mpr ?_
    interval_cases ch <;> simp only [channelField, Rgba.channel] <;> omega
  | 1, _ =>
    refine (pixelHolds_ofNat_iff (by omega)).mpr ?_
    interval_cases ch <;> simp only [channelField, Rgba.channel] <;> omega
  | 2, _ =>
    refine (pixelHolds_ofNat_iff (by omega)).mpr ?_
    interval_cases ch <;> simp only [channelField, Rgba.channel] <;> omega
  | 3, _ =>
    refine (pixelHolds_ofNat_iff (by omega)).mpr ?_
    interval_cases ch <;> simp only [channelField, Rgba.channel] <;> omega

theorem channelField_le_16 {fmt ch : Nat} (hfmt : fmt < 3) (hch : ch < 4) :
    (channelField fmt ch).1 + (channelField fmt ch).2 ≤ 16 := by
  interval_cases fmt <;> interval_cases ch <;> decide

/-- Channels of 16-bit formats lie in the low 16 bits. -/
theorem pixelAgrees_narrow {fmt ch : Nat} (hfmt : fmt < 3) (hch : ch < 4) (v : Word) :
    pixelAgrees fmt ch ((v.setWidth 16).setWidth 32) v := by
  have hle := channelField_le_16 hfmt hch
  rw [pixelAgrees, BitVec.extractLsb'_setWidth_of_le (by omega), BitVec.extractLsb'_setWidth_of_le hle]

theorem colourMask_covers {fmt ch : Nat} (hfmt : fmt < 4) (hch : ch < 3) : MaskCovers fmt ch (colourMask fmt) := by
  have key : ∀ (fmt : Fin 4) (ch : Fin 3), MaskCovers fmt ch (colourMask fmt) := by
    unfold MaskCovers
    decide
  exact key ⟨fmt, hfmt⟩ ⟨ch, hch⟩

theorem colourMask_spares {fmt : Nat} (hfmt : fmt < 4) : MaskSpares fmt 3 (colourMask fmt) := by
  have key : ∀ fmt : Fin 4, MaskSpares fmt 3 (colourMask fmt) := by
    unfold MaskSpares
    decide
  exact key ⟨fmt, hfmt⟩

/-- The mask of clear mode covers the channels whose flag is set and spares the others. -/
theorem Gpu.clearMask_field (g : Gpu) {ch : Nat} (hch : ch < 4) :
    let on := g.flag 0xD3 (if ch < 3 then 8 else 9)
    (on = true → MaskCovers g.fbFmt ch g.clearMask) ∧ (on = false → MaskSpares g.fbFmt ch g.clearMask) := by
  have key : ∀ (b8 b9 : Bool) (fmt ch : Fin 4),
      let on := if ch.val < 3 then b8 else b9
      let mask := (if b8 then colourMask fmt else 0#32) ||| (if b9 then alphaMask fmt else 0#32)
      (on = true → MaskCovers fmt ch mask) ∧ (on = false → MaskSpares fmt ch mask) := by
    unfold MaskCovers MaskSpares
    decide
  rw [apply_ite (g.flag 0xD3)]
  exact key (g.flag 0xD3 8) (g.flag 0xD3 9) ⟨g.fbFmt, g.field_lt 0xD2 0 2⟩ ⟨ch, hch⟩

/-! ## The pixel that is written -/

/-- A pixel that was stored reads back, as far as its format keeps it. -/
theorem pixelAgrees_storeBytes {s : State} (hm : Memory.wf s.mem = true) {fmt ch : Nat} (hfmt : fmt < 4) (hch : ch < 4) (pa : Nat)
    (v : Word) : pixelAgrees fmt ch (pixelAt fmt (s.storeBytes pa (pixelBytes fmt v)).mem pa) v := by
  unfold pixelAt pixelBytes
  by_cases h3 : fmt = 3
  · rw [if_pos h3, if_pos h3, word_storeBytes_word hm]
    rfl
  · rw [if_neg h3, if_neg h3, State.storeBytes_mem, Memory.half_writeList hm]
    exact pixelAgrees_narrow (by omega) hch v

section
variable {s t : State} (h : Painted s t) (px py : Nat)
include h

theorem Painted.readPixel (m : List Host.Cell) : t.gpu.readPixel t.par m px py = s.gpu.readPixel s.par m px py := by
  obtain ⟨_, _, _, rfl⟩ := h
  rfl

theorem Painted.depthAddr : t.gpu.depthAddr px py = s.gpu.depthAddr px py := by
  obtain ⟨_, _, _, rfl⟩ := h
  rfl
end

/-- From `s` to `t` the bits `mask` of the pixel at `pa` become those of `v`, and no byte outside it changes. -/
structure PixelMerged (s t : State) (pa : Nat) (v mask : Word) : Prop where
  painted : Painted s t
  wf : Memory.wf t.mem = true
  covered : ∀ ch, ch < 4 → MaskCovers s.gpu.fbFmt ch mask → pixelAgrees s.gpu.fbFmt ch (pixelAt s.gpu.fbFmt t.mem pa) v
  spared : ∀ ch, ch < 4 → MaskSpares s.gpu.fbFmt ch mask →
    pixelAgrees s.gpu.fbFmt ch (pixelAt s.gpu.fbFmt t.mem pa) (pixelAt s.gpu.fbFmt s.mem pa)
  outside : ∀ a, a < pa ∨ pa + pixelSize s.gpu.fbFmt ≤ a → Memory.read t.mem a = Memory.read s.mem a

/-- An empty mask covers only a channel of no bits. -/
theorem PixelMerged.refl {s : State} (hm : Memory.wf s.mem = true) (pa : Nat) (v : Word) : PixelMerged s s pa v 0#32 where
  painted := Painted.refl s
  wf := hm
  covered ch _ hc := by
    have h := pixelAgrees_mergeBits_of_covers hc (pixelAt s.gpu.fbFmt s.mem pa) v
    rwa [mergeBits_zero] at h
  spared _ _ _ := rfl
  outside _ _ := rfl

section
variable {s : State} {px py pa : Nat} (hm : Memory.wf s.mem = true)
  (hpa : Mapped s.par (s.gpu.pixelAddr px py) pa (pixelSize s.gpu.fbFmt))
include hm hpa

theorem State.writePixel_merged (v mask : Word) :
    PixelMerged s (s.writePixel px py (mergeBits (s.gpu.readPixel s.par s.mem px py) v mask)) pa v mask := by
  rw [Gpu.readPixel_of_mapped hpa]
  generalize hw : mergeBits (pixelAt s.gpu.fbFmt s.mem pa) v mask = w
  have hmem : (s.writePixel px py w).mem = (s.storeBytes pa (pixelBytes s.gpu.fbFmt w)).mem :=
    State.geWrite_mem (pixelBytes s.gpu.fbFmt w) (by rw [pixelBytes_length]; exact hpa)
  have hread : ∀ {ch}, ch < 4 → pixelAgrees s.gpu.fbFmt ch (pixelAt s.gpu.fbFmt (s.writePixel px py w).mem pa) w := fun hch =>
    hmem ▸ pixelAgrees_storeBytes hm (s.gpu.field_lt 0xD2 0 2) hch pa w
  subst hw
  refine ⟨Painted.writePixel s px py _, (Kept.writePixel s px py _).mem hm, fun ch hch hc => ?_, fun ch hch hc => ?_,
    fun a ha => ?_⟩
  · exact pixelAgrees_trans (hread hch) (pixelAgrees_mergeBits_of_covers hc _ v)
  · exact pixelAgrees_trans (hread hch) (pixelAgrees_mergeBits_of_spares hc _ v)
  · rw [hmem]
    exact Memory.read_writeList_outside s.mem pa a _ hm (by rwa [pixelBytes_length])

end

/-! ## The depth that is written -/

section
variable {s : State} {px py pz : Nat} (hm : Memory.wf s.mem = true) (hpz : Mapped s.par (s.gpu.depthAddr px py) pz 2) (z : ℤ)
include hpz

theorem State.writeDepth_mem : (s.writeDepth px py z).mem = Memory.writeList s.mem pz (halfBytes (BitVec.ofInt 16 z)) :=
  State.geWrite_mem (halfBytes (BitVec.ofInt 16 z)) hpz

include hm

theorem State.read_writeDepth_outside {a : Nat} (ha : a < pz ∨ pz + 2 ≤ a) :
    Memory.read (s.writeDepth px py z).mem a = Memory.read s.mem a := by
  rw [State.writeDepth_mem hpz]
  exact Memory.read_writeList_outside s.mem pz a _ hm ha

/-- A depth of 16 bits reads back. -/
theorem State.half_writeDepth (h0 : 0 ≤ z) (h1 : z ≤ 65535) : ((Memory.half (s.writeDepth px py z).mem pz).toNat : ℤ) = z := by
  rw [State.writeDepth_mem hpz, Memory.half_writeList hm, BitVec.toNat_ofInt]
  omega

end

/-! ## What a fragment writes (R396, R397) -/

/-- From `s` to `t` a fragment was written: the bits `mask` of the pixel at `pa` are those of `v` and, where `b` says so, the
depth at `pz` is `z`. The depth is written last, so it may overwrite a pixel that it is not apart from. -/
structure FragmentWritten (s t : State) (pa pz : Nat) (v mask : Word) (z : ℤ) (b : Bool) : Prop where
  covered : b = false ∨ (pa + pixelSize s.gpu.fbFmt ≤ pz ∨ pz + 2 ≤ pa) → ∀ ch, ch < 4 → MaskCovers s.gpu.fbFmt ch mask →
    pixelAgrees s.gpu.fbFmt ch (pixelAt s.gpu.fbFmt t.mem pa) v
  spared : b = false ∨ (pa + pixelSize s.gpu.fbFmt ≤ pz ∨ pz + 2 ≤ pa) → ∀ ch, ch < 4 → MaskSpares s.gpu.fbFmt ch mask →
    pixelAgrees s.gpu.fbFmt ch (pixelAt s.gpu.fbFmt t.mem pa) (pixelAt s.gpu.fbFmt s.mem pa)
  outside : ∀ a, a < pa ∨ pa + pixelSize s.gpu.fbFmt ≤ a → (b = true → a < pz ∨ pz + 2 ≤ a) →
    Memory.read t.mem a = Memory.read s.mem a
  depth : b = true → 0 ≤ z → z ≤ 65535 → ((Memory.half t.mem pz).toNat : ℤ) = z

section
variable {s t : State} {px py pa pz : Nat} {v mask : Word} (hpz : Mapped s.par (s.gpu.depthAddr px py) pz 2)
include hpz

/-- A pixel and, where `b` says so, a depth after it. -/
theorem PixelMerged.fragmentWritten (h : PixelMerged s t pa v mask) (z : ℤ) (b : Bool) :
    FragmentWritten s (if b then t.writeDepth px py z else t) pa pz v mask z b := by
  have hpz' : Mapped t.par (t.gpu.depthAddr px py) pz 2 := by rwa [h.painted.par, h.painted.depthAddr]
  cases b with
  | false =>
    exact ⟨fun _ => h.covered, fun _ => h.spared, fun a ha _ => h.outside a ha, nofun⟩
  | true =>
    have hpixel : (true = false ∨ (pa + pixelSize s.gpu.fbFmt ≤ pz ∨ pz + 2 ≤ pa)) →
        pixelAt s.gpu.fbFmt (t.writeDepth px py z).mem pa = pixelAt s.gpu.fbFmt t.mem pa := by
      rintro (hoff | hapart)
      · cases hoff
      · exact pixelAt_congr fun k hk => State.read_writeDepth_outside h.wf hpz' z (by omega)
    refine ⟨fun hapart ch hch hc => ?_, fun hapart ch hch hc => ?_, fun a ha hb => ?_, fun _ => ?_⟩
    · rw [if_pos rfl, hpixel hapart]
      exact h.covered ch hch hc
    · rw [if_pos rfl, hpixel hapart]
      exact h.spared ch hch hc
    · exact (State.read_writeDepth_outside h.wf hpz' z (hb rfl)).trans (h.outside a ha)
    · exact State.half_writeDepth h.wf hpz' z

variable (hm : Memory.wf s.mem = true) (hpa : Mapped s.par (s.gpu.pixelAddr px py) pa (pixelSize s.gpu.fbFmt))
include hm hpa

/-- Stage 8 (R396). -/
theorem State.writeFragment_written (z : ℤ) (c : Rgba) :
    FragmentWritten s (s.writeFragment px py z c) pa pz (encodeColour s.gpu.fbFmt c) (colourMask s.gpu.fbFmt) z
      (s.gpu.flag 0x23 0 && !s.gpu.flag 0xE7 0) :=
  (State.writePixel_merged hm hpa _ _).fragmentWritten hpz z _

end

/-- Clear mode (R397). -/
theorem State.clearFragment_written {s : State} {f : Fragment} {pa pz : Nat} (hm : Memory.wf s.mem = true)
    (hpa : Mapped s.par (s.gpu.pixelAddr f.px f.py) pa (pixelSize s.gpu.fbFmt))
    (hpz : Mapped s.par (s.gpu.depthAddr f.px f.py) pz 2) (through : Bool) :
    FragmentWritten s (s.clearFragment through f) pa pz (encodeColour s.gpu.fbFmt f.c) s.gpu.clearMask
      (clearDepth s.draws through f) (s.gpu.flag 0xD3 10) := by
  have hcolour : PixelMerged s (s.clearColour f) pa (encodeColour s.gpu.fbFmt f.c) s.gpu.clearMask := by
    unfold State.clearColour
    split
    · rename_i hmask
      rw [hmask]
      exact PixelMerged.refl hm pa _
    · exact State.writePixel_merged hm hpa _ _
  exact hcolour.fragmentWritten hpz _ _

/-- A depth that clear mode writes of a fragment whose own depth has 16 bits, or in through mode. -/
theorem clearDepth_of_fits (seed : Nat) (through : Bool) {f : Fragment} (h0 : 0 ≤ f.z) (h1 : f.z ≤ 65535) :
    clearDepth seed through f = f.z := by
  unfold clearDepth
  split
  · omega
  · exact if_pos ⟨h0, h1⟩

theorem clearDepth_through (seed : Nat) (f : Fragment) : clearDepth seed true f = max 0 (min f.z 65535) := by
  rw [clearDepth, if_pos rfl]
  omega

theorem Gpu.destColour_inRange (g : Gpu) (v : Word) : (g.destColour v).inRange := by
  unfold Gpu.destColour
  split
  · exact Rgba.withAlpha_inRange (decodeColour_inRange 0 v) (Nat.zero_le _)
  · exact decodeColour_inRange _ v

/-- Settles O58: the fragment that passes every stage and the one of clear mode, each written as `FragmentWritten` says. -/
theorem fragmentWrites : Obligations.FragmentWrites := by
  intro s d f pa pz hm hin hc fmt size t old v hpa hpz sameButPixel sameButBoth apart depth c
  have hfmt : fmt < 4 := s.gpu.field_lt 0xD2 0 2
  have hpainted : Painted s t := Painted.shade s d f
  have hold : old = pixelAt fmt s.mem pa := Gpu.readPixel_of_mapped hpa s.mem
  have hv : v = pixelAt fmt t.mem pa := (hpainted.readPixel f.px f.py t.mem).trans (Gpu.readPixel_of_mapped hpa t.mem)
  have hdepth : depth = (Memory.half t.mem pz).toNat := by
    simp only [depth, hpainted.par, geHalf_of_mapped hpz]
  refine ⟨fun z hclear hz hdt hat => ?passes, fun hclear => ?clear⟩
  case passes =>
    rw [hold, hv, hdepth]
    have hcolour : c.inRange :=
      s.gpu.blended_inRange (s.gpu.textured_inRange _ _ f hc) (s.gpu.destColour_inRange old)
    have ht : t = s.writeFragment f.px f.py z c := State.shade_passes hin hclear ⟨hz, hdt, hat⟩
    have hw := State.writeFragment_written hpz hm hpa z c
    rw [← ht] at hw
    obtain ⟨hz0, hz1⟩ := Gpu.depthRange_bounds hz
    have hb : s.gpu.flag 0x23 0 = false ∨ s.gpu.flag 0xE7 0 = true ↔
        (s.gpu.flag 0x23 0 && !s.gpu.flag 0xE7 0) = false := by
      cases s.gpu.flag 0x23 0 <;> cases s.gpu.flag 0xE7 0 <;> decide
    refine ⟨fun h => ?_, fun h => ?_, fun h => ?_⟩
    · have hapart := h.imp_left hb.mp
      refine ⟨fun ch hch => ?_, hw.spared hapart 3 (by decide) (colourMask_spares hfmt)⟩
      exact pixelHolds_congr (hw.covered hapart ch (by omega) (colourMask_covers hfmt hch))
        (pixelHolds_encodeColour hfmt (by omega) hcolour)
    · exact fun a ha => hw.outside a ha fun hon => absurd ((hb.mp h).symm.trans hon) (by decide)
    · have hon := Bool.eq_true_of_not_eq_false (mt hb.mpr h)
      exact ⟨hw.depth hon hz0 hz1, fun a ha hza => hw.outside a ha fun _ => hza⟩
  case clear =>
    rw [hold, hv, hdepth]
    have ht : t = s.clearFragment d.through f := State.shade_clear hin hclear
    have hw := State.clearFragment_written hm hpa hpz d.through
    rw [← ht] at hw
    refine ⟨fun hapart ch hch => ?_, fun hoff a ha => ?_, fun hon => ⟨fun a ha hza => ?_, fun h0 h1 => ?_, fun hthrough => ?_⟩⟩
    · obtain ⟨hcovers, hspares⟩ := s.gpu.clearMask_field hch
      by_cases hon : s.gpu.flag 0xD3 (if ch < 3 then 8 else 9) = true
      · rw [if_pos hon]
        exact pixelHolds_congr (hw.covered hapart ch hch (hcovers hon)) (pixelHolds_encodeColour hfmt hch hc)
      · rw [if_neg hon]
        exact hw.spared hapart ch hch (hspares (Bool.eq_false_of_not_eq_true hon))
    · exact hw.outside a ha fun hon => absurd (hoff.symm.trans hon) (by decide)
    · exact hw.outside a ha fun _ => hza
    · rw [clearDepth_of_fits s.draws d.through h0 h1] at hw
      exact hw.depth hon h0 h1
    · rw [hthrough, clearDepth_through] at hw
      exact hw.depth hon (by omega) (by omega)

end Sys2Proof.Machine
end
